-- ==== Sys2Proof/Config.lean ====
section
/-! DEFINITION. The engine's fixed parameters (00_scope.md R7). There is no free value: the OPEN parameters
ACCESS_LATENCY and ROUND_LATENCY are the number of `busy` events the step reads from its input (log entry 4), and
BRIDGE_BYTE_ORDER lies outside the block (log entry 9). -/

namespace Sys2Proof.Config

/-- `W`, the data-word width (R7). -/
abbrev dataWidth : Nat := 64
/-- `NPERM`, the permutation table's entries (R7). -/
abbrev permEntries : Nat := 64
/-- The width of one permutation entry: a number in [0,64) (R7, R31). -/
abbrev permEntryWidth : Nat := 6
/-- `KEY_DEPTH`, the key store's slots and the largest legal KLEN (R7). -/
abbrev keyDepth : Nat := 16
/-- `ADDR_W`, the register index's width (R7). -/
abbrev addrWidth : Nat := 8
/-- The width of a request, WE ++ ADDR ++ WDATA (R72). -/
abbrev requestWidth : Nat := 73

end Sys2Proof.Config
end

