-- ==== Sys2Proof/Word.lean ====
section
/-! DEFINITION. The engine's word types, at the widths that Config names. Bit 0 is the least significant bit (00_scope.md R8); every value is unsigned. -/

namespace Sys2Proof

/-- A data word (R7). -/
abbrev Word := BitVec 64
/-- A register index (R50). -/
abbrev RegIndex := BitVec 8
/-- A request `WE ++ ADDR ++ WDATA` (R72). -/
abbrev Request := BitVec 73
/-- The number of a key slot (R30). -/
abbrev KeySlot := BitVec 4
/-- A permutation entry, and the number of one: both lie in [0,64) (R31). -/
abbrev PermEntry := BitVec 6
/-- The key store KEY[0..15] (R30). -/
abbrev KeyStore := Vector Word 16
/-- The permutation table PERM[0..63] (R31). -/
abbrev PermTable := Vector PermEntry 64

/-- The types above have the widths of 00_scope.md R7. -/
theorem widths_are_config : Word = BitVec Config.dataWidth ∧ RegIndex = BitVec Config.addrWidth ∧
    Request = BitVec Config.requestWidth ∧ PermEntry = BitVec Config.permEntryWidth ∧
    KeyStore = Vector Word Config.keyDepth ∧ PermTable = Vector PermEntry Config.permEntries :=
  ⟨rfl, rfl, rfl, rfl, rfl, rfl⟩

end Sys2Proof
end

