-- ==== Sys2Proof/Machine/Datapath.lean ====
section
/-! DEFINITION. The datapath's pure functions (40_datapath.md): bijectivity check, permutation unit, substitution unit, key
mix, round function. The source's position p is bit 63 - p and its nibble n is bits [63-4n : 60-4n] (00_scope.md R9). -/

namespace Sys2Proof.Machine

/-- The loop of R100: `seen` holds a 1 at every value met so far. -/
def bijectiveFrom : List PermEntry → BitVec 64 → Bool
  | [], _ => true
  | v :: vs, seen => if seen.getLsbD v.toNat then false else bijectiveFrom vs (seen ||| (1#64 <<< v.toNat))

/-- `Bijective(t)` (R100). -/
def bijective (t : PermTable) : Bool := bijectiveFrom t.toList 0

/-- `y[p] <- b`. -/
def setBit (y : Word) (p : Nat) (b : Bool) : Word :=
  (y &&& ~~~(1#64 <<< p)) ||| ((BitVec.ofBool b).setWidth 64 <<< p)

/-- The loop of R101 from source position `i` on: position i goes to position t(i). -/
def permuteFrom (x : Word) : List PermEntry → Nat → Word → Word
  | [], _, y => y
  | v :: vs, i, y => permuteFrom x vs (i + 1) (setBit y (63 - v.toNat) (x.getLsbD (63 - i)))

/-- `Permute(t, x)` (R101). It is defined for bijective tables only, so it asks for the proof: a table that is none has
no value here (91_not_in_source.md N6, log entry 6). -/
def permute (t : PermTable) (_ : bijective t = true) (x : Word) : Word := permuteFrom x t.toList 0 0

/-- `nib(x, n) = x[63-4n : 60-4n]` (R9, R103). -/
def nib (x : Word) (n : Nat) : BitVec 4 := x.extractLsb' (60 - 4 * n) 4

/-- `y[63-4n : 60-4n] <- v`. -/
def setNib (y : Word) (n : Nat) (v : BitVec 4) : Word :=
  (y &&& ~~~(0xF#64 <<< (60 - 4 * n))) ||| (v.setWidth 64 <<< (60 - 4 * n))

/-- `sbox(v) = SBOX[63-4v : 60-4v]` (R12, R29). -/
def sboxEntry (sbox : Word) (v : BitVec 4) : BitVec 4 := nib sbox v.toNat

/-- `Substitute(SBOX, x)` (R104), total for every SBOX (R105). -/
def substitute (sbox x : Word) : Word :=
  (List.range 16).foldl (fun y n => setNib y n (sboxEntry sbox (nib x n))) 0

/-- `KeyMix(x, k)` (R106). -/
def keyMix (x k : Word) : Word := x ^^^ k

/-- `RoundF(x, k)` (R106) under the tables `t` and `sbox`. -/
def roundF (t : PermTable) (ht : bijective t = true) (sbox x k : Word) : Word :=
  permute t ht (substitute sbox (keyMix x k))

end Sys2Proof.Machine
end

