-- ==== Sys2Proof/Syntax.lean ====
section
/-! DEFINITION. The engine's requests as syntax: one constructor per row of spec/opcode_table.json, in its order
(30_encoding.md R83). A request is what the engine has in place of an instruction (10_state.md R20). WDATA is no operand
of a read or of an access to an unmapped index, which ignore it (R72, R79, log entry 7). -/

namespace Sys2Proof

inductive Instr where
  /-- RD_ID (R131) -/
  | rdId
  /-- RD_CMD (R132) -/
  | rdCmd
  /-- RD_STATUS (R133) -/
  | rdStatus
  /-- RD_MSG (R134) -/
  | rdMsg
  /-- RD_CT (R135) -/
  | rdCt
  /-- RD_ROUND (R136) -/
  | rdRound
  /-- RD_KLEN (R137) -/
  | rdKlen
  /-- RD_KCUR (R138) -/
  | rdKcur
  /-- RD_SBOX (R139) -/
  | rdSbox
  /-- RD_DBG_KEY (R140) -/
  | rdDbgKey
  /-- RD_DBG_MIX (R141) -/
  | rdDbgMix
  /-- RD_DBG_SUB (R142) -/
  | rdDbgSub
  /-- RD_KEY, key slot `j` (R143) -/
  | rdKey (j : KeySlot)
  /-- RD_PERM, permutation entry `i` (R144) -/
  | rdPerm (i : PermEntry)
  /-- CMD_ROUND (R181) -/
  | cmdRound
  /-- CMD_RESET (R191) -/
  | cmdReset
  /-- CMD_CLR_ERR (R192) -/
  | cmdClrErr
  /-- CMD_ILLEGAL: a write of `d` to CMD, `d` no legal command word (R193) -/
  | cmdIllegal (d : Word)
  /-- WR_MSG (R150) -/
  | wrMsg (d : Word)
  /-- WR_KLEN (R151) -/
  | wrKlen (d : Word)
  /-- WR_SBOX (R152) -/
  | wrSbox (d : Word)
  /-- WR_KEY, key slot `j` (R153) -/
  | wrKey (j : KeySlot) (d : Word)
  /-- WR_PERM, permutation entry `i` (R154) -/
  | wrPerm (i : PermEntry) (d : Word)
  /-- WR_RO_ID: a write to ID (R155) -/
  | wrRoId (d : Word)
  /-- WR_RO_STATUS: a write to STATUS (R155) -/
  | wrRoStatus (d : Word)
  /-- WR_RO_CT: a write to CT (R155) -/
  | wrRoCt (d : Word)
  /-- WR_RO_ROUND: a write to ROUND (R155) -/
  | wrRoRound (d : Word)
  /-- WR_RO_KCUR: a write to KCUR (R155) -/
  | wrRoKcur (d : Word)
  /-- WR_RO_DBG_KEY: a write to DBG_KEY (R155) -/
  | wrRoDbgKey (d : Word)
  /-- WR_RO_DBG_MIX: a write to DBG_MIX (R155) -/
  | wrRoDbgMix (d : Word)
  /-- WR_RO_DBG_SUB: a write to DBG_SUB (R155) -/
  | wrRoDbgSub (d : Word)
  /-- ACC_UNMAPPED_0C_0F: a read (`we = false`) or write of the unmapped index `a` (R156) -/
  | accUnmapped0C0F (we : Bool) (a : RegIndex)
  /-- ACC_UNMAPPED_20_3F: a read or write of the unmapped index `a` (R156) -/
  | accUnmapped203F (we : Bool) (a : RegIndex)
  /-- ACC_UNMAPPED_80_FF: a read or write of the unmapped index `a` (R156) -/
  | accUnmapped80FF (we : Bool) (a : RegIndex)
deriving DecidableEq, Repr

end Sys2Proof
end

