-- ==== Sys2Proof/WellFormed.lean ====
section
/-! DEFINITION. Which terms of `Instr` stand for a request: the constraints that the rows of 30_encoding.md R83 put on
their operands and that the operand types do not already say. -/

namespace Sys2Proof

/-- The illegal row holds every command word but the three legal ones (R77, R83 row 18); an unmapped row holds the
indices of its own range only (R55, R83 row 25). Every other operand may have every value of its type. -/
def Instr.wf : Instr → Bool
  | .cmdIllegal d => d != 1#64 && d != 2#64 && d != 3#64
  | .accUnmapped0C0F _ a => decide (0x0C#8 ≤ a) && decide (a ≤ 0x0F#8)
  | .accUnmapped203F _ a => decide (0x20#8 ≤ a) && decide (a ≤ 0x3F#8)
  | .accUnmapped80FF _ a => decide (0x80#8 ≤ a)
  | .rdId | .rdCmd | .rdStatus | .rdMsg | .rdCt | .rdRound | .rdKlen | .rdKcur | .rdSbox | .rdDbgKey | .rdDbgMix
  | .rdDbgSub | .rdKey _ | .rdPerm _ | .cmdRound | .cmdReset | .cmdClrErr | .wrMsg _ | .wrKlen _ | .wrSbox _
  | .wrKey _ _ | .wrPerm _ _ | .wrRoId _ | .wrRoStatus _ | .wrRoCt _ | .wrRoRound _ | .wrRoKcur _ | .wrRoDbgKey _
  | .wrRoDbgMix _ | .wrRoDbgSub _ => true

end Sys2Proof
end

