-- ==== Sys2Proof/Decode.lean ====
section
/-! DEFINITION. The decoder of 30_encoding.md R83 (first match, top to bottom), total on all 2^73 requests (R79), and the
encoder written from the same table. A number that does not fit the port's 73 wires is refused by name. -/

namespace Sys2Proof

/-- WE = REQ[72] (R72). -/
def reqWe (q : Request) : Bool := q.getLsbD 72
/-- ADDR = REQ[71:64] (R72). -/
def reqAddr (q : Request) : RegIndex := q.extractLsb' 64 8
/-- WDATA = REQ[63:0] (R72). -/
def reqData (q : Request) : Word := q.extractLsb' 0 64

/-- `REQ = WE ++ ADDR ++ WDATA`, the 73-bit value `(WE << 72) | (ADDR << 64) | WDATA` (R72). -/
def mkRequest (we : Bool) (a : RegIndex) (d : Word) : Request :=
  ((BitVec.ofBool we).setWidth 73 <<< 72) ||| (a.setWidth 73 <<< 64) ||| d.setWidth 73

/-- The key slot `j = ADDR[3:0]` (R75). -/
def addrKeySlot (a : RegIndex) : KeySlot := a.extractLsb' 0 4
/-- The permutation entry `i = ADDR[5:0]` (R75). -/
def addrPermEntry (a : RegIndex) : PermEntry := a.extractLsb' 0 6
/-- The index of KEY[j]: 0001jjjj (R36, R83 rows 13, 22). -/
def keyIndex (j : KeySlot) : RegIndex := 0b0001#4 ++ j
/-- The index of PERM[i]: 01iiiiii (R36, R83 rows 14, 23). -/
def permIndex (i : PermEntry) : RegIndex := 0b01#2 ++ i

/-- Row 25 of R83, by its three ranges: what is left of the indices once every mapped one is taken. -/
def decodeUnmapped (we : Bool) (a : RegIndex) : Instr :=
  if a.extractLsb' 2 6 = 0b000011#6 then .accUnmapped0C0F we a
  else if a.extractLsb' 5 3 = 0b001#3 then .accUnmapped203F we a
  else .accUnmapped80FF we a

/-- Rows 1 to 14 of R83: reads. -/
def decodeRead (a : RegIndex) : Instr :=
  if a = 0x00#8 then .rdId
  else if a = 0x01#8 then .rdCmd
  else if a = 0x02#8 then .rdStatus
  else if a = 0x03#8 then .rdMsg
  else if a = 0x04#8 then .rdCt
  else if a = 0x05#8 then .rdRound
  else if a = 0x06#8 then .rdKlen
  else if a = 0x07#8 then .rdKcur
  else if a = 0x08#8 then .rdSbox
  else if a = 0x09#8 then .rdDbgKey
  else if a = 0x0A#8 then .rdDbgMix
  else if a = 0x0B#8 then .rdDbgSub
  else if a.extractLsb' 4 4 = 0b0001#4 then .rdKey (addrKeySlot a)
  else if a.extractLsb' 6 2 = 0b01#2 then .rdPerm (addrPermEntry a)
  else decodeUnmapped false a

/-- Rows 15 to 18 of R83: a write to CMD. -/
def decodeCommand (d : Word) : Instr :=
  if d = 1#64 then .cmdRound
  else if d = 2#64 then .cmdReset
  else if d = 3#64 then .cmdClrErr
  else .cmdIllegal d

/-- Rows 15 to 24 of R83: writes. -/
def decodeWrite (a : RegIndex) (d : Word) : Instr :=
  if a = 0x01#8 then decodeCommand d
  else if a = 0x03#8 then .wrMsg d
  else if a = 0x06#8 then .wrKlen d
  else if a = 0x08#8 then .wrSbox d
  else if a.extractLsb' 4 4 = 0b0001#4 then .wrKey (addrKeySlot a) d
  else if a.extractLsb' 6 2 = 0b01#2 then .wrPerm (addrPermEntry a) d
  else if a = 0x00#8 then .wrRoId d
  else if a = 0x02#8 then .wrRoStatus d
  else if a = 0x04#8 then .wrRoCt d
  else if a = 0x05#8 then .wrRoRound d
  else if a = 0x07#8 then .wrRoKcur d
  else if a = 0x09#8 then .wrRoDbgKey d
  else if a = 0x0A#8 then .wrRoDbgMix d
  else if a = 0x0B#8 then .wrRoDbgSub d
  else decodeUnmapped true a

/-- The decode of a request (R83). -/
def decode (q : Request) : Instr :=
  if reqWe q then decodeWrite (reqAddr q) (reqData q) else decodeRead (reqAddr q)

/-- Why a number is no request. -/
inductive DecodeError where
  /-- The number has a bit at place 73 or above, and a request has none (R72, R80). -/
  | widerThanRequest
deriving DecidableEq, Repr

/-- The decoder on a plain number: total, refusing by name what the port has no wires for. -/
def decodeNumber (w : Nat) : Except DecodeError Instr :=
  if w < 2 ^ 73 then .ok (decode (BitVec.ofNat 73 w)) else .error .widerThanRequest

/-- The request a term stands for (R72, R83). The WDATA of a read and of an unmapped access takes no part in the match
(R72, R79); it is encoded as 0. -/
def encode : Instr → Request
  | .rdId => mkRequest false 0x00#8 0
  | .rdCmd => mkRequest false 0x01#8 0
  | .rdStatus => mkRequest false 0x02#8 0
  | .rdMsg => mkRequest false 0x03#8 0
  | .rdCt => mkRequest false 0x04#8 0
  | .rdRound => mkRequest false 0x05#8 0
  | .rdKlen => mkRequest false 0x06#8 0
  | .rdKcur => mkRequest false 0x07#8 0
  | .rdSbox => mkRequest false 0x08#8 0
  | .rdDbgKey => mkRequest false 0x09#8 0
  | .rdDbgMix => mkRequest false 0x0A#8 0
  | .rdDbgSub => mkRequest false 0x0B#8 0
  | .rdKey j => mkRequest false (keyIndex j) 0
  | .rdPerm i => mkRequest false (permIndex i) 0
  | .cmdRound => mkRequest true 0x01#8 1#64
  | .cmdReset => mkRequest true 0x01#8 2#64
  | .cmdClrErr => mkRequest true 0x01#8 3#64
  | .cmdIllegal d => mkRequest true 0x01#8 d
  | .wrMsg d => mkRequest true 0x03#8 d
  | .wrKlen d => mkRequest true 0x06#8 d
  | .wrSbox d => mkRequest true 0x08#8 d
  | .wrKey j d => mkRequest true (keyIndex j) d
  | .wrPerm i d => mkRequest true (permIndex i) d
  | .wrRoId d => mkRequest true 0x00#8 d
  | .wrRoStatus d => mkRequest true 0x02#8 d
  | .wrRoCt d => mkRequest true 0x04#8 d
  | .wrRoRound d => mkRequest true 0x05#8 d
  | .wrRoKcur d => mkRequest true 0x07#8 d
  | .wrRoDbgKey d => mkRequest true 0x09#8 d
  | .wrRoDbgMix d => mkRequest true 0x0A#8 d
  | .wrRoDbgSub d => mkRequest true 0x0B#8 d
  | .accUnmapped0C0F we a => mkRequest we a 0
  | .accUnmapped203F we a => mkRequest we a 0
  | .accUnmapped80FF we a => mkRequest we a 0

/-- The instruction the decoder reads from the table's word `w`: bit 0 of `w` is bit 0 of REQ, as spec/opcode_table.json
numbers its rows (98_reader.md). Bits above `nbits` are 0 in `w` already, so `nbits` changes nothing. -/
def decodeTableWord (_nbits w : Nat) : Option Instr :=
  match decodeNumber w with
  | .ok i => some i
  | .error _ => none

end Sys2Proof
end

