-- ==== Sys2Proof/Machine/State.lean ====
section
/-! DEFINITION. The engine's whole state (10_state.md R20 to R35), its state after hardware reset (R38), and the port's
events and responses (30_encoding.md R70 to R73). -/

namespace Sys2Proof.Machine

/-- A response `(ERR, RDATA)` (R73). -/
structure Response where
  /-- `rsp_err`: the request was rejected (R214). -/
  err : Bool
  /-- `rsp_rdata`: read data; 0 for writes and for rejected requests. -/
  rdata : Word
deriving DecidableEq, Repr

/-- What happens at the port next, as the host and the engine's own latency settle it (R70, R71; log entries 1, 4). -/
inductive PortEvent where
  /-- The host offers the request `q` and holds it until it transfers (R71 (a), R250). -/
  | request (q : Request)
  /-- The host offers nothing; a request outstanding is answered meanwhile. -/
  | idle
  /-- A cycle in which the engine is still working on the request outstanding (R71 (c), R254). -/
  | busy
  /-- A rising edge of `clk` with `rst_n = 0` (R240). -/
  | resetEdge
deriving DecidableEq, Repr

/-- The causes of a rejection (R212). -/
inductive Cause where
  /-- read or write of an unmapped index -/
  | badAddr
  /-- write to a read-only register -/
  | roWrite
  /-- PERM write with WDATA[63:6] != 0 -/
  | rsvdBits
  /-- KLEN write of 0 or of more than 16 -/
  | badKlen
  /-- CMD write that is no legal command word -/
  | illegalCmd
  /-- ROUND while KLEN = 0 -/
  | noKeys
  /-- ROUND while PERM is not a bijection -/
  | permInvalid
  /-- ROUND while ROUND = 0xFFFFFFFF -/
  | roundOvf
deriving DecidableEq, Repr

/-- The engine's state: the elements of R38, and the two lists that stand for the host at the port. -/
structure State where
  /-- MSG (R24) -/
  msg : Word
  /-- CT, the ciphertext accumulator (R25) -/
  ct : Word
  /-- ROUND, the round counter (R26) -/
  round : BitVec 32
  /-- KLEN, the key sequence's length (R27) -/
  klen : BitVec 5
  /-- KCUR, the key cursor (R28) -/
  kcur : BitVec 5
  /-- SBOX, entry v in bits [63-4v : 60-4v] (R29) -/
  sbox : Word
  /-- KEY[0..15] (R30) -/
  keys : KeyStore
  /-- PERM[0..63], 6 bits each (R31) -/
  perm : PermTable
  /-- DBG_KEY (R33) -/
  dbgKey : Word
  /-- DBG_MIX (R33) -/
  dbgMix : Word
  /-- DBG_SUB (R33) -/
  dbgSub : Word
  /-- STATUS.ERR, sticky (R23) -/
  err : Bool
  /-- STATUS.ERRCODE (R23, R212) -/
  errCode : BitVec 4
  /-- STATUS.ERRADDR (R23) -/
  errAddr : RegIndex
  /-- STATUS.ERRWR (R23) -/
  errWr : Bool
  /-- OUTSTANDING (R35): `none` is 0, `some r` is 1 with `r` the response not yet delivered (log entry 2) -/
  outstanding : Option Response
  /-- the MODEL's own: what happens at the port from now on, next event first (log entry 1) -/
  inbox : List PortEvent
  /-- the MODEL's own: the responses delivered to the host, oldest first (log entry 3) -/
  received : List Response
deriving DecidableEq, Repr

/-- The one reason the machine stops. -/
inductive Fault where
  /-- Raised by CMD_ROUND where the key cursor points at none of the 16 key slots (R30, R180). R37 (a) and (b) rule it
  out of every state reachable from reset. Safe: the model stops where the spec names no key (log entry 5). -/
  | keySlotAbsent
deriving DecidableEq, Repr

/-- Why an instruction has no meaning. -/
inductive Refusal where
  /-- Raised by an arm of `exec` that has no meaning yet; no arm is left in that state. Safe: the model stops. -/
  | notModelled (mnemonic : String)
deriving DecidableEq, Repr

/-- The identity permutation table, PERM[i] = i (R38). -/
def identityPerm : PermTable := Vector.ofFn fun i => BitVec.ofNat 6 i.val

/-- The state after hardware reset, every element at the value R38 gives it. The host's two lists are empty: a request
comes to the engine only from outside (log entries 1, 3). -/
def State.reset : State where
  msg := 0
  ct := 0
  round := 0
  klen := 0
  kcur := 0
  sbox := 0x0123456789ABCDEF#64
  keys := Vector.replicate 16 0
  perm := identityPerm
  dbgKey := 0
  dbgMix := 0
  dbgSub := 0
  err := false
  errCode := 0
  errAddr := 0
  errWr := false
  outstanding := none
  inbox := []
  received := []

end Sys2Proof.Machine
end

