-- ==== Sys2Proof/Machine/Operands.lean ====
section
/-! DEFINITION. Operands: what the write data of KLEN and PERM may be (30_encoding.md R75), and the values of the registers
as read, zero-extended (20_memory.md R52, 41_register_access.md R130). The operands taken from the address are the
decoder's (`addrKeySlot`, `addrPermEntry`). -/

namespace Sys2Proof.Machine

/-- ID (R21). -/
def idValue : Word := 0x53504E4554010000#64

/-- The KLEN a write of `d` sets: `d` as an unsigned number, 1 to 16, else none (R75, R151). -/
def klenOperand (d : Word) : Option (BitVec 5) :=
  if d.toNat = 0 ∨ 16 < d.toNat then none else some (d.extractLsb' 0 5)

/-- The entry a PERM write of `d` sets: none where one of bits [63:6] is set (R75, R154). -/
def permOperand (d : Word) : Option PermEntry :=
  if d.extractLsb' 6 58 ≠ 0#58 then none else some (d.extractLsb' 0 6)

/-- ROUND as read (R26). -/
def State.roundWord (s : State) : Word := s.round.setWidth 64
/-- KLEN as read (R27). -/
def State.klenWord (s : State) : Word := s.klen.setWidth 64
/-- KCUR as read (R28). -/
def State.kcurWord (s : State) : Word := s.kcur.setWidth 64
/-- KEY[j] (R30). -/
def State.key (s : State) (j : KeySlot) : Word := s.keys[j.toNat]'(by have := j.isLt; omega)
/-- perm(i) (R12, R31). -/
def State.permEntry (s : State) (i : PermEntry) : PermEntry := s.perm[i.toNat]'(by have := i.isLt; omega)
/-- PERM[i] as read (R31). -/
def State.permWord (s : State) (i : PermEntry) : Word := (s.permEntry i).setWidth 64

end Sys2Proof.Machine
end

