-- ==== Sys2Proof/Machine/Ops.lean ====
section
/-! DEFINITION. The named operations over the engine's state that the meanings share: responding, rejecting a request (the
engine's only exception, 60_exceptions.md R210), round-state reset, register writes, the key scheduler. -/

namespace Sys2Proof.Machine

/-- `respond(e, d)` (R11): the response is on its way, and OUTSTANDING stays 1 until it is delivered (R71). -/
def State.respond (s : State) (e : Bool) (d : Word) : State := { s with outstanding := some ⟨e, d⟩ }

/-- An accepted read: `respond(0, v)` and nothing else (R130). -/
def acceptRead (s : State) (v : Word) : Host.Outcome State Fault Refusal := .next (s.respond false v)

/-- An accepted write: `respond(0, 0)` after the write's effect, which `s` holds already (R149). -/
def acceptWrite (s : State) : Host.Outcome State Fault Refusal := .next (s.respond false 0)

/-- The cause codes (R212). -/
def Cause.code : Cause → BitVec 4
  | .badAddr => 1
  | .roWrite => 2
  | .rsvdBits => 3
  | .badKlen => 4
  | .illegalCmd => 5
  | .noKeys => 6
  | .permInvalid => 7
  | .roundOvf => 8

/-- The error record keeps the first rejection since it was last cleared (R213). -/
def State.recordError (s : State) (c : Cause) (a : RegIndex) (w : Bool) : State :=
  if s.err then s else { s with err := true, errCode := c.code, errAddr := a, errWr := w }

/-- `raise Reject(code)` for a request with index `a` and write flag `w` (R213): TAKING THE EXCEPTION. Nothing but the
error record changes (R215) and the response is `(1, 0)` (R214). There is no return from it (R219). -/
def reject (s : State) (c : Cause) (a : RegIndex) (w : Bool) : Host.Outcome State Fault Refusal :=
  .next ((s.recordError c a w).respond true 0)

/-- CLR_ERR's effect, which re-arms the record (R192, R219). -/
def State.clearError (s : State) : State := { s with err := false, errCode := 0, errAddr := 0, errWr := false }

/-- Round-state reset: CT <- 0, ROUND <- 0, KCUR <- 0 and nothing else (R34). -/
def State.roundStateReset (s : State) : State := { s with ct := 0, round := 0, kcur := 0 }

/-- MSG <- d. -/
def State.setMsg (s : State) (d : Word) : State := { s with msg := d }
/-- KLEN <- n. -/
def State.setKlen (s : State) (n : BitVec 5) : State := { s with klen := n }
/-- SBOX <- d. -/
def State.setSbox (s : State) (d : Word) : State := { s with sbox := d }
/-- KEY[j] <- d. -/
def State.setKey (s : State) (j : KeySlot) (d : Word) : State :=
  { s with keys := s.keys.set j.toNat d (by have := j.isLt; omega) }
/-- PERM[i] <- v. -/
def State.setPerm (s : State) (i v : PermEntry) : State :=
  { s with perm := s.perm.set i.toNat v (by have := i.isLt; omega) }

/-- The slot the next round consumes: the cursor, wrapped to 0 where it has used every key (R180). -/
def State.nextSlot (s : State) : BitVec 5 := if s.kcur ≥ s.klen then 0 else s.kcur

/-- `NextKey()` (R180): the key taken and the cursor after it. `none` where the slot is none of KEY[0..15] (log entry 5). -/
def State.nextKey (s : State) : Option (Word × BitVec 5) :=
  if h : s.nextSlot.toNat < 16 then some (s.keys[s.nextSlot.toNat], s.nextSlot + 1) else none

/-- A round's effects, all together (R58, R181): the key `k`, the mix `m`, the substitution `b`, the ciphertext `c` and the
new counters. -/
def State.commitRound (s : State) (k m b c : Word) (round : BitVec 32)
    (kcur : BitVec 5) : State :=
  { s with ct := c, round := round, kcur := kcur, dbgKey := k, dbgMix := m, dbgSub := b }

end Sys2Proof.Machine
end

