-- ==== Sys2Proof/Machine/Commands.lean ====
section
/-! DEFINITION. The commands (42_commands.md R181, R191 to R193). -/

namespace Sys2Proof.Machine

/-- R181: the three checks in order, then one round. -/
def execCmdRound (s : State) : Host.Outcome State Fault Refusal :=
  if s.klen = 0 then reject s .noKeys 0x01#8 true
  else if hb : bijective s.perm = true then
    if s.round = 0xFFFFFFFF#32 then reject s .roundOvf 0x01#8 true
    else
      match s.nextKey with
      | none => .fault .keySlotAbsent
      | some (k, kcur) =>
        let round := s.round + 1
        let x := if round = 1 then s.msg else s.ct
        let m := keyMix x k
        let b := substitute s.sbox m
        let c := permute s.perm hb b
        acceptWrite (s.commitRound k m b c round kcur)
  else reject s .permInvalid 0x01#8 true

/-- R191 -/
def execCmdReset (s : State) : Host.Outcome State Fault Refusal := acceptWrite s.roundStateReset

/-- R192 -/
def execCmdClrErr (s : State) : Host.Outcome State Fault Refusal := acceptWrite s.clearError

/-- R193 -/
def execCmdIllegal (s : State) : Host.Outcome State Fault Refusal := reject s .illegalCmd 0x01#8 true

end Sys2Proof.Machine
end

