-- ==== Sys2Proof/Machine/Flags.lean ====
section
/-! DEFINITION. The status word and its live bits (10_state.md R23, R32). The engine has no condition codes. -/

namespace Sys2Proof.Machine

/-- PVALID, live (R32). -/
def State.pvalid (s : State) : Bool := bijective s.perm
/-- KVALID, live (R32). -/
def State.kvalid (s : State) : Bool := s.klen != 0

/-- `v`, zero-extended, at bit place `p` of a 64-bit word. -/
def fieldAt {w : Nat} (p : Nat) (v : BitVec w) : Word := v.setWidth 64 <<< p

/-- STATUS as read, each field at its place in the table of R23; every other bit reads 0. -/
def State.statusWord (s : State) : Word :=
  fieldAt 0 (BitVec.ofBool s.err) ||| fieldAt 1 (BitVec.ofBool s.pvalid) ||| fieldAt 2 (BitVec.ofBool s.kvalid) |||
    fieldAt 8 s.errCode ||| fieldAt 16 s.errAddr ||| fieldAt 24 (BitVec.ofBool s.errWr)

/-- `req_ready` (R71 (b)). -/
def State.reqReady (s : State) : Bool := s.outstanding.isNone

end Sys2Proof.Machine
end

