-- ==== Sys2Proof/Machine/Reads.lean ====
section
/-! DEFINITION. The reads (41_register_access.md R130 to R144): each responds with its register's value and changes no other
state. -/

namespace Sys2Proof.Machine

/-- R131 -/
def execRdId (s : State) : Host.Outcome State Fault Refusal := acceptRead s idValue
/-- R132: CMD holds no storage. -/
def execRdCmd (s : State) : Host.Outcome State Fault Refusal := acceptRead s 0
/-- R133 -/
def execRdStatus (s : State) : Host.Outcome State Fault Refusal := acceptRead s s.statusWord
/-- R134 -/
def execRdMsg (s : State) : Host.Outcome State Fault Refusal := acceptRead s s.msg
/-- R135 -/
def execRdCt (s : State) : Host.Outcome State Fault Refusal := acceptRead s s.ct
/-- R136 -/
def execRdRound (s : State) : Host.Outcome State Fault Refusal := acceptRead s s.roundWord
/-- R137 -/
def execRdKlen (s : State) : Host.Outcome State Fault Refusal := acceptRead s s.klenWord
/-- R138 -/
def execRdKcur (s : State) : Host.Outcome State Fault Refusal := acceptRead s s.kcurWord
/-- R139 -/
def execRdSbox (s : State) : Host.Outcome State Fault Refusal := acceptRead s s.sbox
/-- R140 -/
def execRdDbgKey (s : State) : Host.Outcome State Fault Refusal := acceptRead s s.dbgKey
/-- R141 -/
def execRdDbgMix (s : State) : Host.Outcome State Fault Refusal := acceptRead s s.dbgMix
/-- R142 -/
def execRdDbgSub (s : State) : Host.Outcome State Fault Refusal := acceptRead s s.dbgSub
/-- R143: every slot is readable, those at KLEN and above too. -/
def execRdKey (j : KeySlot) (s : State) : Host.Outcome State Fault Refusal := acceptRead s (s.key j)
/-- R144 -/
def execRdPerm (i : PermEntry) (s : State) : Host.Outcome State Fault Refusal := acceptRead s (s.permWord i)

end Sys2Proof.Machine
end

