-- ==== Sys2Proof/Machine/Rejections.lean ====
section
/-! DEFINITION. The requests that are rejected whatever the state: a write to a read-only register (41_register_access.md
R155) and an access to an unmapped index (R156). -/

namespace Sys2Proof.Machine

/-- R155: ID is read-only. -/
def execWrRoId (s : State) : Host.Outcome State Fault Refusal := reject s .roWrite 0x00#8 true
/-- R155: STATUS is read-only. -/
def execWrRoStatus (s : State) : Host.Outcome State Fault Refusal := reject s .roWrite 0x02#8 true
/-- R155: CT is read-only. -/
def execWrRoCt (s : State) : Host.Outcome State Fault Refusal := reject s .roWrite 0x04#8 true
/-- R155: ROUND is read-only. -/
def execWrRoRound (s : State) : Host.Outcome State Fault Refusal := reject s .roWrite 0x05#8 true
/-- R155: KCUR is read-only. -/
def execWrRoKcur (s : State) : Host.Outcome State Fault Refusal := reject s .roWrite 0x07#8 true
/-- R155: DBG_KEY is read-only. -/
def execWrRoDbgKey (s : State) : Host.Outcome State Fault Refusal := reject s .roWrite 0x09#8 true
/-- R155: DBG_MIX is read-only. -/
def execWrRoDbgMix (s : State) : Host.Outcome State Fault Refusal := reject s .roWrite 0x0A#8 true
/-- R155: DBG_SUB is read-only. -/
def execWrRoDbgSub (s : State) : Host.Outcome State Fault Refusal := reject s .roWrite 0x0B#8 true
/-- R156: indices 0x0C to 0x0F. -/
def execAccUnmapped0C0F (we : Bool) (a : RegIndex) (s : State) : Host.Outcome State Fault Refusal :=
  reject s .badAddr a we
/-- R156: indices 0x20 to 0x3F. -/
def execAccUnmapped203F (we : Bool) (a : RegIndex) (s : State) : Host.Outcome State Fault Refusal :=
  reject s .badAddr a we
/-- R156: indices 0x80 to 0xFF. -/
def execAccUnmapped80FF (we : Bool) (a : RegIndex) (s : State) : Host.Outcome State Fault Refusal :=
  reject s .badAddr a we

end Sys2Proof.Machine
end

