-- ==== Sys2Proof/Machine/Writes.lean ====
section
/-! DEFINITION. The register writes (41_register_access.md R149 to R154). -/

namespace Sys2Proof.Machine

/-- R150: sets the message and resets the round state. -/
def execWrMsg (d : Word) (s : State) : Host.Outcome State Fault Refusal :=
  acceptWrite (s.setMsg d).roundStateReset

/-- R151: a length of 1 to 16 is set and the round state reset; any other is rejected. -/
def execWrKlen (d : Word) (s : State) : Host.Outcome State Fault Refusal :=
  match klenOperand d with
  | none => reject s .badKlen 0x06#8 true
  | some n => acceptWrite (s.setKlen n).roundStateReset

/-- R152: no bijectivity check, no round-state reset. -/
def execWrSbox (d : Word) (s : State) : Host.Outcome State Fault Refusal := acceptWrite (s.setSbox d)

/-- R153: no round-state reset. -/
def execWrKey (j : KeySlot) (d : Word) (s : State) : Host.Outcome State Fault Refusal := acceptWrite (s.setKey j d)

/-- R154: an entry in [0,64) is set, with no bijectivity check; any other is rejected. -/
def execWrPerm (i : PermEntry) (d : Word) (s : State) : Host.Outcome State Fault Refusal :=
  match permOperand d with
  | none => reject s .rsvdBits (permIndex i) true
  | some v => acceptWrite (s.setPerm i v)

end Sys2Proof.Machine
end

