-- ==== Sys2Proof/Machine/Dispatch.lean ====
section
/-! DEFINITION. One arm per request: what each does to the engine. -/

namespace Sys2Proof.Machine

def exec (i : Instr) (s : State) : Host.Outcome State Fault Refusal :=
  match i with
  | .rdId => Sys2Proof.Machine.execRdId s
  | .rdCmd => Sys2Proof.Machine.execRdCmd s
  | .rdStatus => Sys2Proof.Machine.execRdStatus s
  | .rdMsg => Sys2Proof.Machine.execRdMsg s
  | .rdCt => Sys2Proof.Machine.execRdCt s
  | .rdRound => Sys2Proof.Machine.execRdRound s
  | .rdKlen => Sys2Proof.Machine.execRdKlen s
  | .rdKcur => Sys2Proof.Machine.execRdKcur s
  | .rdSbox => Sys2Proof.Machine.execRdSbox s
  | .rdDbgKey => Sys2Proof.Machine.execRdDbgKey s
  | .rdDbgMix => Sys2Proof.Machine.execRdDbgMix s
  | .rdDbgSub => Sys2Proof.Machine.execRdDbgSub s
  | .rdKey j => Sys2Proof.Machine.execRdKey j s
  | .rdPerm p => Sys2Proof.Machine.execRdPerm p s
  | .cmdRound => Sys2Proof.Machine.execCmdRound s
  | .cmdReset => Sys2Proof.Machine.execCmdReset s
  | .cmdClrErr => Sys2Proof.Machine.execCmdClrErr s
  | .cmdIllegal _ => Sys2Proof.Machine.execCmdIllegal s
  | .wrMsg d => Sys2Proof.Machine.execWrMsg d s
  | .wrKlen d => Sys2Proof.Machine.execWrKlen d s
  | .wrSbox d => Sys2Proof.Machine.execWrSbox d s
  | .wrKey j d => Sys2Proof.Machine.execWrKey j d s
  | .wrPerm p d => Sys2Proof.Machine.execWrPerm p d s
  | .wrRoId _ => Sys2Proof.Machine.execWrRoId s
  | .wrRoStatus _ => Sys2Proof.Machine.execWrRoStatus s
  | .wrRoCt _ => Sys2Proof.Machine.execWrRoCt s
  | .wrRoRound _ => Sys2Proof.Machine.execWrRoRound s
  | .wrRoKcur _ => Sys2Proof.Machine.execWrRoKcur s
  | .wrRoDbgKey _ => Sys2Proof.Machine.execWrRoDbgKey s
  | .wrRoDbgMix _ => Sys2Proof.Machine.execWrRoDbgMix s
  | .wrRoDbgSub _ => Sys2Proof.Machine.execWrRoDbgSub s
  | .accUnmapped0C0F we a => Sys2Proof.Machine.execAccUnmapped0C0F we a s
  | .accUnmapped203F we a => Sys2Proof.Machine.execAccUnmapped203F we a s
  | .accUnmapped80FF we a => Sys2Proof.Machine.execAccUnmapped80FF we a s

end Sys2Proof.Machine
end

