-- ==== Sys2Proof/Machine/Port.lean ====
section
/-! DEFINITION. The port: the handshake of 30_encoding.md R71 without time (70_reset_and_hazards.md R254), and hardware reset
(R240, R242). -/

namespace Sys2Proof.Machine

/-- What the next event at the port comes to. -/
inductive Fetched where
  /-- a request transfers: the engine performs `i` from the state `s` -/
  | run (i : Instr) (s : State)
  /-- no request transfers, and the state becomes `s` -/
  | quiet (s : State)
deriving DecidableEq, Repr

/-- Hardware reset: every state element takes its reset value, OUTSTANDING among them, so that a request outstanding is
abandoned without a response (R240, R242). What the host still has to offer and what it has received are not the engine's
(log entry 3). -/
def hardwareReset (s : State) (rest : List PortEvent) : State :=
  { State.reset with inbox := rest, received := s.received }

/-- The response cycle: the response outstanding, if there is one, is delivered and OUTSTANDING returns to 0 (R71 (c),
(d)); the host must accept it (R71 (f)). `rest` is what happens after. -/
def answer (s : State) (rest : List PortEvent) : State :=
  match s.outstanding with
  | none => { s with inbox := rest }
  | some r => { s with outstanding := none, received := s.received ++ [r], inbox := rest }

/-- The next event at the port. A request transfers only where none is outstanding; until then it is held (R71 (a), (b),
R250). With no event left, a response outstanding is still delivered (R254), and otherwise the engine waits (R240). -/
def fetch (s : State) : Fetched :=
  match s.inbox with
  | [] => .quiet (answer s [])
  | .resetEdge :: rest => .quiet (hardwareReset s rest)
  | .busy :: rest => .quiet { s with inbox := rest }
  | .idle :: rest => .quiet (answer s rest)
  | .request q :: rest =>
    if s.reqReady then .run (decode q) { s with inbox := rest }
    else .quiet (answer s (.request q :: rest))

/-- The request `q` offered to an engine that is ready for it, so that it transfers at the very next step. -/
def State.offer (s : State) (q : Request) : State := { s with outstanding := none, inbox := .request q :: s.inbox }

end Sys2Proof.Machine
end

