-- ==== Sys2Proof/Machine/Step.lean ====
section
/-! DEFINITION. One step of the machine: the next event at the port, and the request's meaning where one transfers
(30_encoding.md R74, 20_memory.md R59). -/

namespace Sys2Proof.Machine

/-- One step (R59, R71, R74, R240). -/
def step (s : State) : Host.Outcome State Fault Refusal :=
  match fetch s with
  | .quiet t => .next t
  | .run i t => exec i t

/-- `s` with the request whose bits are `w` offered next at a ready port. A number of more than 73 bits is no request
(R72, R80), and nothing is offered for it (log entry 10). -/
def State.withFetchWord (s : State) (_nbits w : Nat) : State :=
  if w < 2 ^ 73 then s.offer (BitVec.ofNat 73 w) else s

end Sys2Proof.Machine
end

