-- ==== Sys2Proof/Machine/Assembler.lean ====
section
/-! DEFINITION. The assembler's forms: register names, lines and pseudo-instructions (30_encoding.md R81, R82), their
requests, and the reading of a line of text. No rule of the machine depends on it (92_eei_decisions.md D24). -/

namespace Sys2Proof.Machine

/-- `<reg>` (R81). -/
inductive RegName where
  | id | cmd | status | msg | ct | round | klen | kcur | sbox | dbgKey | dbgMix | dbgSub
  | key (j : KeySlot)
  | perm (i : PermEntry)
  /-- a raw index, `@0xNN` -/
  | raw (a : RegIndex)
deriving DecidableEq, Repr

/-- The register's index (R36). -/
def RegName.index : RegName → RegIndex
  | .id => 0x00#8
  | .cmd => 0x01#8
  | .status => 0x02#8
  | .msg => 0x03#8
  | .ct => 0x04#8
  | .round => 0x05#8
  | .klen => 0x06#8
  | .kcur => 0x07#8
  | .sbox => 0x08#8
  | .dbgKey => 0x09#8
  | .dbgMix => 0x0A#8
  | .dbgSub => 0x0B#8
  | .key j => keyIndex j
  | .perm i => permIndex i
  | .raw a => a

/-- A line: one request (R81). -/
inductive Line where
  | rd (r : RegName)
  | wr (r : RegName) (v : Word)
deriving DecidableEq, Repr

/-- `BusRead` and `BusWrite` (R72, R81). -/
def Line.request : Line → Request
  | .rd r => mkRequest false r.index 0
  | .wr r v => mkRequest true r.index v

/-- The response a line may say it expects after `=>` (R81). -/
inductive Expectation where
  | ok
  | okValue (v : Word)
  | err
deriving DecidableEq, Repr

/-- Pseudo-instructions (R82). -/
inductive Pseudo where
  | line (l : Line)
  | round
  | reset
  | clrErr
  | setMsg (m : Word)
  | setKeys (ks : List Word)
  | setPerm (t : PermTable)
  /-- the ruleset's 16 characters as nibbles, the first most significant -/
  | setSbox (r : Vector (BitVec 4) 16)
  | newEngine (t : PermTable) (r : Vector (BitVec 4) 16) (m : Word) (ks : List Word)
  | encrypt (n : Nat)
deriving DecidableEq, Repr

/-- `0xh0h1...h15`, h0 most significant (R29, R82). -/
def rulesetWord (r : Vector (BitVec 4) 16) : Word := r.toList.foldl (fun w h => (w <<< 4) ||| h.setWidth 64) 0

/-- `WR KEY[j], k` for the keys from slot `j` on. -/
def keyLines : Nat → List Word → List Line
  | _, [] => []
  | j, k :: ks => .wr (.key (BitVec.ofNat 4 j)) k :: keyLines (j + 1) ks

/-- `WR PERM[i], v` for the entries from `i` on. -/
def permLines : Nat → List PermEntry → List Line
  | _, [] => []
  | i, v :: vs => .wr (.perm (BitVec.ofNat 6 i)) (v.setWidth 64) :: permLines (i + 1) vs

/-- SETKEYS writes KLEN last (R82). -/
def setKeysLines (ks : List Word) : List Line := keyLines 0 ks ++ [.wr .klen (BitVec.ofNat 64 ks.length)]

/-- The expansion (R82); a key sequence of 0 or of more than 16 keys has none. -/
def Pseudo.expand : Pseudo → Option (List Line)
  | .line l => some [l]
  | .round => some [.wr .cmd 1]
  | .reset => some [.wr .cmd 2]
  | .clrErr => some [.wr .cmd 3]
  | .setMsg m => some [.wr .msg m]
  | .setKeys ks => if 1 ≤ ks.length ∧ ks.length ≤ 16 then some (setKeysLines ks) else none
  | .setPerm t => some (permLines 0 t.toList)
  | .setSbox r => some [.wr .sbox (rulesetWord r)]
  | .newEngine t r m ks =>
    if 1 ≤ ks.length ∧ ks.length ≤ 16 then
      some (permLines 0 t.toList ++ [.wr .sbox (rulesetWord r)] ++ setKeysLines ks ++ [.wr .msg m])
    else none
  | .encrypt n => some (List.replicate n (.wr .cmd 1))

/-- The port events of a sequence of lines: each request is offered and held until it transfers. -/
def linesEvents (ls : List Line) : List PortEvent := ls.map fun l => .request l.request

/-- A digit's value, hexadecimal included, in either case. -/
def digitValue (c : Char) : Option Nat :=
  let n := c.toNat
  if 48 ≤ n ∧ n ≤ 57 then some (n - 48)
  else if 97 ≤ n ∧ n ≤ 102 then some (n - 87)
  else if 65 ≤ n ∧ n ≤ 70 then some (n - 55)
  else none

/-- Digits of one base, the first most significant; `acc` is what has been read. -/
def readDigits (base : Nat) : Nat → List Char → Option Nat
  | acc, [] => some acc
  | acc, c :: cs =>
    match digitValue c with
    | some d => if d < base then readDigits base (acc * base + d) cs else none
    | none => none

/-- A value, hexadecimal (`0x...`) or decimal (R81). -/
def readNumber : List Char → Option Nat
  | '0' :: 'x' :: c :: cs => readDigits 16 0 (c :: cs)
  | c :: cs => readDigits 10 0 (c :: cs)
  | [] => none

/-- A value that fits a register. -/
def readWord (cs : List Char) : Option Word :=
  match readNumber cs with
  | some n => if n < 2 ^ 64 then some (BitVec.ofNat 64 n) else none
  | none => none

/-- The number in `NAME[...]` after its bracket, below `bound`. -/
def readSubscript (bound : Nat) (cs : List Char) : Option Nat :=
  match cs.getLast? with
  | some ']' =>
    match readNumber cs.dropLast with
    | some n => if n < bound then some n else none
    | none => none
  | _ => none

/-- `<reg>` (R81). -/
def readReg : List Char → Option RegName
  | ['I', 'D'] => some .id
  | ['C', 'M', 'D'] => some .cmd
  | ['S', 'T', 'A', 'T', 'U', 'S'] => some .status
  | ['M', 'S', 'G'] => some .msg
  | ['C', 'T'] => some .ct
  | ['R', 'O', 'U', 'N', 'D'] => some .round
  | ['K', 'L', 'E', 'N'] => some .klen
  | ['K', 'C', 'U', 'R'] => some .kcur
  | ['S', 'B', 'O', 'X'] => some .sbox
  | ['D', 'B', 'G', '_', 'K', 'E', 'Y'] => some .dbgKey
  | ['D', 'B', 'G', '_', 'M', 'I', 'X'] => some .dbgMix
  | ['D', 'B', 'G', '_', 'S', 'U', 'B'] => some .dbgSub
  | 'K' :: 'E' :: 'Y' :: '[' :: cs => (readSubscript 16 cs).map fun j => .key (BitVec.ofNat 4 j)
  | 'P' :: 'E' :: 'R' :: 'M' :: '[' :: cs => (readSubscript 64 cs).map fun i => .perm (BitVec.ofNat 6 i)
  | ['@', '0', 'x', h, l] => (readDigits 16 0 [h, l]).map fun a => .raw (BitVec.ofNat 8 a)
  | _ => none

/-- A blank: space, tab, carriage return. -/
def isBlank (c : Char) : Bool := c = ' ' || c = '\t' || c = '\r'

/-- Without the blanks at either end. -/
def trimBlanks (cs : List Char) : List Char := ((cs.dropWhile isBlank).reverse.dropWhile isBlank).reverse

/-- What stands before the first `sep` and what after it. -/
def cutAt (sep : Char) : List Char → List Char × Option (List Char)
  | [] => ([], none)
  | c :: cs => if c = sep then ([], some cs) else let (a, b) := cutAt sep cs; (c :: a, b)

/-- What stands before `=>` and what after it. -/
def cutAtArrow : List Char → List Char × Option (List Char)
  | [] => ([], none)
  | '=' :: '>' :: cs => ([], some cs)
  | c :: cs => let (a, b) := cutAtArrow cs; (c :: a, b)

/-- `ok`, `ok <value>` or `err` (R81). -/
def readExpectation (cs : List Char) : Option Expectation :=
  match trimBlanks cs with
  | ['o', 'k'] => some .ok
  | ['e', 'r', 'r'] => some .err
  | 'o' :: 'k' :: c :: rest =>
    if isBlank c then (readWord (trimBlanks rest)).map .okValue else none
  | _ => none

/-- Values between commas. -/
def readWords : Nat → List Char → Option (List Word)
  | 0, _ => none
  | fuel + 1, cs =>
    match cutAt ',' cs with
    | (a, none) => (readWord (trimBlanks a)).map fun v => [v]
    | (a, some rest) =>
      match readWord (trimBlanks a), readWords fuel rest with
      | some v, some vs => some (v :: vs)
      | _, _ => none

/-- 64 values, each in [0,64), as a permutation table. -/
def readTable (vs : List Word) : Option PermTable :=
  if h : vs.length = 64 then
    if vs.all fun v => decide (v.toNat < 64) then
      some (⟨(vs.map fun v => v.setWidth 6).toArray, by simp [h]⟩)
    else none
  else none

/-- `"h0h1...h15"` as 16 nibbles. -/
def readRuleset (cs : List Char) : Option (Vector (BitVec 4) 16) :=
  if h : (cs.filterMap digitValue).length = 16 then
    if cs.length = 16 then some (⟨((cs.filterMap digitValue).map fun d => BitVec.ofNat 4 d).toArray, by simp [h]⟩)
    else none
  else none

/-- The instruction part of a line: `RD`, `WR` (R81) or a pseudo-instruction (R82). NEWENGINE has no spelling here: R82
does not say how its table is written (log entry 11). -/
def readInstruction (cs : List Char) : Option Pseudo :=
  match cs with
  | 'R' :: 'D' :: ' ' :: rest => (readReg (trimBlanks rest)).map fun r => .line (.rd r)
  | 'W' :: 'R' :: ' ' :: rest =>
    match cutAt ',' rest with
    | (a, some b) =>
      match readReg (trimBlanks a), readWord (trimBlanks b) with
      | some r, some v => some (.line (.wr r v))
      | _, _ => none
    | (_, none) => none
  | ['R', 'O', 'U', 'N', 'D'] => some .round
  | ['R', 'E', 'S', 'E', 'T'] => some .reset
  | ['C', 'L', 'R', '_', 'E', 'R', 'R'] => some .clrErr
  | 'S' :: 'E' :: 'T' :: 'M' :: 'S' :: 'G' :: ' ' :: rest => (readWord (trimBlanks rest)).map .setMsg
  | 'S' :: 'E' :: 'T' :: 'K' :: 'E' :: 'Y' :: 'S' :: ' ' :: rest => (readWords rest.length rest).map .setKeys
  | 'S' :: 'E' :: 'T' :: 'P' :: 'E' :: 'R' :: 'M' :: ' ' :: rest =>
    ((readWords rest.length rest).bind readTable).map .setPerm
  | 'S' :: 'E' :: 'T' :: 'S' :: 'B' :: 'O' :: 'X' :: ' ' :: rest =>
    match trimBlanks rest with
    | '"' :: r => if r.getLast? = some '"' then (readRuleset r.dropLast).map .setSbox else none
    | _ => none
  | 'E' :: 'N' :: 'C' :: 'R' :: 'Y' :: 'P' :: 'T' :: ' ' :: rest => (readNumber (trimBlanks rest)).map .encrypt
  | _ => none

/-- A line of text: the instruction, and the expectation if one stands there; comments start with `;` (R81). -/
def readLine (cs : List Char) : Option (Pseudo × Option Expectation) :=
  match cutAtArrow (cutAt ';' cs).1 with
  | (a, none) => (readInstruction (trimBlanks a)).map fun p => (p, none)
  | (a, some e) =>
    match readInstruction (trimBlanks a), readExpectation e with
    | some p, some x => some (p, some x)
    | _, _ => none

end Sys2Proof.Machine
end

