-- ==== Sys2Proof/Machine/Request.lean ====
section
/-! DEFINITION. The engine's step on one request as 30_encoding.md R74 writes it, by the address map (10_state.md R36) and the
command decode (42_commands.md R190). The machine itself runs the decode table of R83 (`decode`, `exec`); that the two
forms agree is a statement about the model. -/

namespace Sys2Proof.Machine

/-- `mapped(a)` (R74). -/
def mapped (a : RegIndex) : Bool :=
  decide (a ≤ 0x0B#8) || (decide (0x10#8 ≤ a) && decide (a ≤ 0x1F#8)) || (decide (0x40#8 ≤ a) && decide (a ≤ 0x7F#8))

/-- `a in RO_SET` (R74). -/
def readOnly (a : RegIndex) : Bool :=
  a == 0x00#8 || a == 0x02#8 || a == 0x04#8 || a == 0x05#8 || a == 0x07#8 || a == 0x09#8 || a == 0x0A#8 || a == 0x0B#8

/-- `ReadValue(S, a)` for a mapped index (R36, R130 to R144). -/
def readValue (s : State) (a : RegIndex) : Word :=
  if a = 0x00#8 then idValue
  else if a = 0x01#8 then 0
  else if a = 0x02#8 then s.statusWord
  else if a = 0x03#8 then s.msg
  else if a = 0x04#8 then s.ct
  else if a = 0x05#8 then s.roundWord
  else if a = 0x06#8 then s.klenWord
  else if a = 0x07#8 then s.kcurWord
  else if a = 0x08#8 then s.sbox
  else if a = 0x09#8 then s.dbgKey
  else if a = 0x0A#8 then s.dbgMix
  else if a = 0x0B#8 then s.dbgSub
  else if a ≤ 0x1F#8 then s.key (addrKeySlot a)
  else s.permWord (addrPermEntry a)

/-- `Command(d)` (R190), by the fields RSVD and OP of the command word (R76). -/
def command (d : Word) (s : State) : Host.Outcome State Fault Refusal :=
  if d.extractLsb' 8 56 ≠ 0#56 then reject s .illegalCmd 0x01#8 true
  else if d.extractLsb' 0 8 = 0x01#8 then execCmdRound s
  else if d.extractLsb' 0 8 = 0x02#8 then execCmdReset s
  else if d.extractLsb' 0 8 = 0x03#8 then execCmdClrErr s
  else reject s .illegalCmd 0x01#8 true

/-- `step(S, REQ)` (R74). -/
def requestStep (q : Request) (s : State) : Host.Outcome State Fault Refusal :=
  if mapped (reqAddr q) = false then reject s .badAddr (reqAddr q) (reqWe q)
  else if reqWe q = false then acceptRead s (readValue s (reqAddr q))
  else if readOnly (reqAddr q) then reject s .roWrite (reqAddr q) true
  else if reqAddr q = 0x01#8 then command (reqData q) s
  else if reqAddr q = 0x03#8 then execWrMsg (reqData q) s
  else if reqAddr q = 0x06#8 then execWrKlen (reqData q) s
  else if reqAddr q = 0x08#8 then execWrSbox (reqData q) s
  else if 0x10#8 ≤ reqAddr q ∧ reqAddr q ≤ 0x1F#8 then execWrKey (addrKeySlot (reqAddr q)) (reqData q) s
  else execWrPerm (addrPermEntry (reqAddr q)) (reqData q) s

end Sys2Proof.Machine
end

