-- ==== Sys2Proof/Safety.lean ====
section
/-! DEFINITION. What holds of every state a run from reset reaches: the session invariants of 10_state.md R37, a coherent
error record (R23, 60_exceptions.md R211, R212), and rejected responses without data (R214). -/

namespace Sys2Proof.Machine

/-- R37 (a) to (f). -/
abbrev SessionOk (s : State) : Prop :=
  s.klen.toNat ≤ 16 ∧
  s.kcur.toNat ≤ s.klen.toNat ∧
  (s.round = 0 ↔ s.kcur = 0) ∧
  (s.round = 0 → s.ct = 0) ∧
  (s.round ≠ 0 → s.kcur.toNat - 1 = (s.round.toNat - 1) % s.klen.toNat) ∧
  ∀ v ∈ s.perm.toList, v.toNat < 64

/-- A recorded rejection names the index and the direction that its cause can have (R211, R212): codes 9 to 15 never occur. -/
abbrev CauseFits (code : BitVec 4) (a : RegIndex) (w : Bool) : Prop :=
  (code = 1 ∧ mapped a = false) ∨
  (code = 2 ∧ w = true ∧ readOnly a = true) ∨
  (code = 3 ∧ w = true ∧ 0x40#8 ≤ a ∧ a ≤ 0x7F#8) ∨
  (code = 4 ∧ w = true ∧ a = 0x06#8) ∨
  ((code = 5 ∨ code = 6 ∨ code = 7 ∨ code = 8) ∧ w = true ∧ a = 0x01#8)

/-- The error record is clear (R23: its fields are 0 when ERR = 0) or holds a rejection that fits its cause. -/
abbrev RecordOk (s : State) : Prop :=
  (s.err = false ∧ s.errCode = 0 ∧ s.errAddr = 0 ∧ s.errWr = false) ∨
  (s.err = true ∧ CauseFits s.errCode s.errAddr s.errWr)

/-- A rejected request's response carries no data (R214), on its way or delivered. -/
abbrev ResponsesOk (s : State) : Prop :=
  ∀ r ∈ s.outstanding.toList ++ s.received, r.err = true → r.rdata = 0

/-- The invariant of the machine. -/
abbrev Inv (s : State) : Prop := SessionOk s ∧ RecordOk s ∧ ResponsesOk s

end Sys2Proof.Machine
end

