-- ==== Sys2Proof/Certificates/Slice0/Obligations.lean ====
section
/-! DEFINITION. The statements about the engine, for the provers. Each formalises the rule of spec/ that its docstring names.
An accepted request's next state is written out whole, as a record update of the state before: what it does not name is
unchanged, which is the request's frame. -/

namespace Sys2Proof.Claims

open Machine

/-- The response of an accepted write (R73). -/
def okWrite : Option Response := some ⟨false, 0⟩

/-- The response of an accepted read of `v` (R73). -/
def okRead (v : Word) : Option Response := some ⟨false, v⟩

/-- The response of a rejected request (R214). -/
def rejectedRsp : Option Response := some ⟨true, 0⟩

/-- `o` is the rejection of a request with index `a` and write flag `w` for the cause `code`: the response is `(1, 0)`
(R214), the first rejection is recorded and a later one is not (R213), and nothing else changes (R215). -/
def RejectedWith (s : State) (o : Host.Outcome State Fault Refusal) (code : BitVec 4) (a : RegIndex) (w : Bool) : Prop :=
  (s.err = false → o = .next
    { s with err := true, errCode := code, errAddr := a, errWr := w, outstanding := rejectedRsp }) ∧
  (s.err = true → o = .next { s with outstanding := rejectedRsp })

/-- PERM is a bijection: its 64 values are pairwise distinct (R12, R100). -/
def DistinctEntries (t : PermTable) : Prop := ∀ i j : Fin 64, t[i] = t[j] → i = j

/-- The slot the next round's key is taken from (R180). -/
def slotOf (s : State) : Nat := if s.kcur.toNat ≥ s.klen.toNat then 0 else s.kcur.toNat

/-- The next round's input: the message in round 1, the previous ciphertext afterwards (R181 step 3). -/
def inputOf (s : State) : Word := if s.round = 0 then s.msg else s.ct

/-- X_r of R182 for the tables, keys and message of `s`: X_0 = MSG, X_r = RoundF(X_(r-1), KEY[(r-1) mod KLEN]). The key is
always there where KLEN is 1 to 16. -/
def cipherWord (s : State) (hb : bijective s.perm = true) : Nat → Word
  | 0 => s.msg
  | r + 1 => roundF s.perm hb s.sbox (cipherWord s hb r) (s.keys.toList.getD (r % s.klen.toNat) 0)

/-- CT holds X_ROUND of the tables, keys and message of `s` (R182). In a fresh session, with ROUND = 0, it says nothing. -/
def CtIsCipherWord (s : State) : Prop :=
  ∀ hb : bijective s.perm = true, s.round ≠ 0 → s.ct = cipherWord s hb s.round.toNat

/-- The next event at the port is the transfer of a write to PERM, SBOX or KEY, which R251 keeps out of a session. -/
def TableWriteTransfers (s : State) : Prop :=
  s.outstanding = none ∧ ∃ q rest, s.inbox = .request q :: rest ∧
    ((∃ i d, decode q = .wrPerm i d) ∨ (∃ d, decode q = .wrSbox d) ∨ ∃ j d, decode q = .wrKey j d)

/-- The checks of a request in the order of R211: the first that fails gives the code, and none is left where all pass. -/
def firstFailure (s : State) (q : Request) : Option (BitVec 4) :=
  let a := reqAddr q
  let d := reqData q
  if mapped a = false then some 1
  else if reqWe q = true ∧ readOnly a = true then some 2
  else if reqWe q = true ∧ 0x40#8 ≤ a ∧ d.extractLsb' 6 58 ≠ 0#58 then some 3
  else if reqWe q = true ∧ a = 0x06#8 ∧ (d.toNat = 0 ∨ 16 < d.toNat) then some 4
  else if reqWe q = true ∧ a = 0x01#8 ∧
      (d.extractLsb' 8 56 ≠ 0#56 ∨ ¬ (d.extractLsb' 0 8 = 1#8 ∨ d.extractLsb' 0 8 = 2#8 ∨ d.extractLsb' 0 8 = 3#8)) then
    some 5
  else if reqWe q = true ∧ a = 0x01#8 ∧ d.extractLsb' 0 8 = 1#8 then
    if s.klen = 0 then some 6
    else if bijective s.perm = false then some 7
    else if s.round = 0xFFFFFFFF#32 then some 8
    else none
  else none

/-- The number of 1 bits of a word. -/
def weight (x : Word) : Nat := (List.range 64).countP fun k => x.getLsbD k

/-- Two states that differ at most in the DBG registers. -/
def SameButDebug (s t : State) : Prop :=
  { s with dbgKey := 0, dbgMix := 0, dbgSub := 0 } = { t with dbgKey := 0, dbgMix := 0, dbgSub := 0 }

/-- `i` reads a DBG register. -/
def ReadsDebug (i : Instr) : Prop := i = .rdDbgKey ∨ i = .rdDbgMix ∨ i = .rdDbgSub

end Sys2Proof.Claims

open Sys2Proof Sys2Proof.Machine Sys2Proof.Claims

/-! ## Reset and the port -/

/-- R38: the value of every state element after hardware reset, STATUS and ID as read among them. -/
def Obligations.ResetStateHoldsSpecValues : Prop :=
  let s := State.reset
  s.msg = 0 ∧ s.ct = 0 ∧ s.round = 0 ∧ s.kcur = 0 ∧ s.klen = 0 ∧
  (∀ j : Fin 16, s.keys[j] = 0) ∧ s.sbox = 0x0123456789ABCDEF#64 ∧ (∀ i : Fin 64, (s.perm[i]).toNat = i.val) ∧
  s.dbgKey = 0 ∧ s.dbgMix = 0 ∧ s.dbgSub = 0 ∧
  s.err = false ∧ s.errCode = 0 ∧ s.errAddr = 0 ∧ s.errWr = false ∧ s.outstanding = none ∧
  s.statusWord = 0x0000000000000002#64 ∧ idValue = 0x53504E4554010000#64

/-- R242 (and R240's values): an edge with `rst_n = 0` sets every state element, from any state. A request outstanding is
abandoned: no response is delivered for it. That what the host still offers and has received stays is the model's own
choice (log entry 3). -/
def Obligations.ResetEdgeAbandonsRequestAndRestoresReset : Prop :=
  ∀ (s : State) (rest : List PortEvent), s.inbox = .resetEdge :: rest →
    step s = .next { State.reset with inbox := rest, received := s.received }

/-- R59, R71, R74: where no request is outstanding, a step takes the request the host offers and performs what it decodes
to, at the state before it, with that request gone from the host's offers. That the offers are a list in the state is the
model's choice (log entry 1). -/
def Obligations.StepPerformsDecodedRequest : Prop :=
  ∀ (s : State) (q : Request) (rest : List PortEvent), s.inbox = .request q :: rest → s.outstanding = none →
    step s = exec (decode q) { s with inbox := rest }

/-- R71 (b), (d), R250, R254: while a request is outstanding, a request the host offers is held, not lost and not performed;
its step delivers the response and changes nothing else. A busy cycle changes nothing. The model's choices in it: the
offers are a list in the state (log entry 1); what is delivered is appended to `received` (3); the busy event, and delivery
where nothing is offered any more (4); the response cycle and the edge that ends it are one step (12). -/
def Obligations.OutstandingRequestHoldsTheNextOne : Prop :=
  ∀ (s : State) (r : Response) (rest : List PortEvent), s.outstanding = some r →
    (∀ q, s.inbox = .request q :: rest →
      step s = .next { s with outstanding := none, received := s.received ++ [r] }) ∧
    (s.inbox = .idle :: rest →
      step s = .next { s with outstanding := none, received := s.received ++ [r], inbox := rest }) ∧
    (s.inbox = [] → step s = .next { s with outstanding := none, received := s.received ++ [r] }) ∧
    (s.inbox = .busy :: rest → step s = .next { s with inbox := rest })

/-- R240, R254: with no request outstanding, an idle or a busy cycle, and a step with no event left, change no state but take
the event: the engine waits. The events, and that a step with none left answers the same state, are the model's choice (log
entries 1, 4). -/
def Obligations.QuietEventsChangeNothingWhenNoneOutstanding : Prop :=
  ∀ (s : State) (rest : List PortEvent), s.outstanding = none →
    (s.inbox = [] → step s = .next s) ∧
    (s.inbox = .idle :: rest → step s = .next { s with inbox := rest }) ∧
    (s.inbox = .busy :: rest → step s = .next { s with inbox := rest })

/-- R71 (c), R254: a request that transfers is answered by exactly one response, after however many cycles `n` of latency,
unless a hardware reset comes first. The latency as busy events, the step that delivers and `received` are the model's
choices (log entries 1, 3, 4, 12). -/
def Obligations.TransferredRequestIsAnsweredOnce : Prop :=
  ∀ (s : State) (q : Request) (n : Nat) (rest : List PortEvent), Inv s → s.outstanding = none →
    s.inbox = .request q :: (List.replicate n .busy ++ rest) →
    rest.head? ≠ some .busy → rest.head? ≠ some .resetEdge →
    ∃ u r t, exec (decode q) { s with inbox := List.replicate n .busy ++ rest } = .next u ∧ u.outstanding = some r ∧
      core.run (n + 2) s = .next t ∧ t.received = s.received ++ [r] ∧ t.outstanding = none

/-! ## Reads -/

/-- R131, R132, R134 to R138: each read, whatever its write data, responds with its register, zero-extended, and changes no
other state. -/
def Obligations.ControlRegisterReadsReturnTheirRegister : Prop :=
  (∀ d : Word,
    decode (mkRequest false 0x00#8 d) = .rdId ∧ decode (mkRequest false 0x01#8 d) = .rdCmd ∧
    decode (mkRequest false 0x03#8 d) = .rdMsg ∧ decode (mkRequest false 0x04#8 d) = .rdCt ∧
    decode (mkRequest false 0x05#8 d) = .rdRound ∧ decode (mkRequest false 0x06#8 d) = .rdKlen ∧
    decode (mkRequest false 0x07#8 d) = .rdKcur) ∧
  ∀ s : State,
    exec .rdId s = .next { s with outstanding := okRead 0x53504E4554010000#64 } ∧
    exec .rdCmd s = .next { s with outstanding := okRead 0 } ∧
    exec .rdMsg s = .next { s with outstanding := okRead s.msg } ∧
    exec .rdCt s = .next { s with outstanding := okRead s.ct } ∧
    exec .rdRound s = .next { s with outstanding := okRead (BitVec.ofNat 64 s.round.toNat) } ∧
    exec .rdKlen s = .next { s with outstanding := okRead (BitVec.ofNat 64 s.klen.toNat) } ∧
    exec .rdKcur s = .next { s with outstanding := okRead (BitVec.ofNat 64 s.kcur.toNat) }

/-- R139 to R144: the table, key and debug reads, whatever their write data, respond with their register, zero-extended, and
change no other state. -/
def Obligations.TableKeyAndDebugReadsReturnTheirRegister : Prop :=
  (∀ d : Word,
    decode (mkRequest false 0x08#8 d) = .rdSbox ∧ decode (mkRequest false 0x09#8 d) = .rdDbgKey ∧
    decode (mkRequest false 0x0A#8 d) = .rdDbgMix ∧ decode (mkRequest false 0x0B#8 d) = .rdDbgSub ∧
    (∀ j : KeySlot, decode (mkRequest false (BitVec.ofNat 8 (0x10 + j.toNat)) d) = .rdKey j) ∧
    (∀ i : PermEntry, decode (mkRequest false (BitVec.ofNat 8 (0x40 + i.toNat)) d) = .rdPerm i)) ∧
  ∀ s : State,
    exec .rdSbox s = .next { s with outstanding := okRead s.sbox } ∧
    exec .rdDbgKey s = .next { s with outstanding := okRead s.dbgKey } ∧
    exec .rdDbgMix s = .next { s with outstanding := okRead s.dbgMix } ∧
    exec .rdDbgSub s = .next { s with outstanding := okRead s.dbgSub } ∧
    (∀ j : KeySlot, ∃ v, s.keys[j.toNat]? = some v ∧ exec (.rdKey j) s = .next { s with outstanding := okRead v }) ∧
    (∀ i : PermEntry, ∃ v, s.perm[i.toNat]? = some v ∧
      exec (.rdPerm i) s = .next { s with outstanding := okRead (BitVec.ofNat 64 v.toNat) })

/-- R133: STATUS as read, field by field, its live bits evaluated at the read, its reserved bits 0; reading it changes no
other state. Every read request of index 0x02 is this read. -/
def Obligations.StatusReadShowsRecordAndLiveBits : Prop :=
  (∀ d : Word, decode (mkRequest false 0x02#8 d) = .rdStatus) ∧
  ∀ s : State, ∃ v : Word, exec .rdStatus s = .next { s with outstanding := okRead v } ∧
    v.getLsbD 0 = s.err ∧ (v.getLsbD 1 = true ↔ DistinctEntries s.perm) ∧ (v.getLsbD 2 = true ↔ s.klen ≠ 0) ∧
    v.extractLsb' 3 5 = 0#5 ∧ v.extractLsb' 8 4 = s.errCode ∧ v.extractLsb' 12 4 = 0#4 ∧
    v.extractLsb' 16 8 = s.errAddr ∧ v.getLsbD 24 = s.errWr ∧ v.extractLsb' 25 39 = 0#39

/-- R130: a read of any mapped index, whatever its write data, is accepted, responds with that register's value and changes
no other state. -/
def Obligations.MappedReadHasNoSideEffect : Prop :=
  ∀ (s : State) (a : RegIndex) (d : Word), mapped a = true →
    exec (decode (mkRequest false a d)) s = .next { s with outstanding := okRead (readValue s a) }

/-! ## Writes -/

/-- R150: a write to 0x03: any message is accepted; the write sets it and resets the round state. -/
def Obligations.MsgWriteSetsMessageAndResetsRoundState : Prop :=
  ∀ (s : State) (d : Word), decode (mkRequest true 0x03#8 d) = .wrMsg d ∧ exec (.wrMsg d) s =
    .next { s with msg := d, ct := 0, round := 0, kcur := 0, outstanding := okWrite }

/-- R151: a write to 0x06: a length of 1 to 16 is set and the round state reset; 0 and anything above 16 are rejected with
BAD_KLEN. -/
def Obligations.KlenWriteCommitsLegalLengthOnly : Prop :=
  ∀ (s : State) (d : Word), decode (mkRequest true 0x06#8 d) = .wrKlen d ∧
    (1 ≤ d.toNat → d.toNat ≤ 16 → ∃ n : BitVec 5, n.toNat = d.toNat ∧ exec (.wrKlen d) s =
      .next { s with klen := n, ct := 0, round := 0, kcur := 0, outstanding := okWrite }) ∧
    (d.toNat = 0 ∨ 16 < d.toNat → RejectedWith s (exec (.wrKlen d) s) 4 0x06#8 true)

/-- R152, R105: a write to 0x08: any S-box is accepted, bijective or not, and the round state is not reset. -/
def Obligations.SboxWriteTakesEveryValue : Prop :=
  ∀ (s : State) (d : Word), decode (mkRequest true 0x08#8 d) = .wrSbox d ∧
    exec (.wrSbox d) s = .next { s with sbox := d, outstanding := okWrite }

/-- R153, R30: a write to 0x10 + j: a slot write changes that slot and nothing else. -/
def Obligations.KeyWriteChangesItsSlotOnly : Prop :=
  ∀ (s : State) (j : KeySlot) (d : Word), decode (mkRequest true (BitVec.ofNat 8 (0x10 + j.toNat)) d) = .wrKey j d ∧
    ∃ ks : KeyStore, exec (.wrKey j d) s = .next { s with keys := ks, outstanding := okWrite } ∧
    ∀ n : Fin 16, ks[n] = if n.val = j.toNat then d else s.keys[n]

/-- R154: a write to 0x40 + i: an entry in [0,64) is set, and nothing else changes; data with one of bits [63:6] set is
rejected with RSVD_BITS at the entry's index. -/
def Obligations.PermWriteChangesItsEntryOnly : Prop :=
  ∀ (s : State) (i : PermEntry) (d : Word),
    decode (mkRequest true (BitVec.ofNat 8 (0x40 + i.toNat)) d) = .wrPerm i d ∧
    (d.extractLsb' 6 58 = 0#58 → ∃ t : PermTable,
      exec (.wrPerm i d) s = .next { s with perm := t, outstanding := okWrite } ∧
      ∀ n : Fin 64, t[n] = if n.val = i.toNat then d.extractLsb' 0 6 else s.perm[n]) ∧
    (d.extractLsb' 6 58 ≠ 0#58 → RejectedWith s (exec (.wrPerm i d) s) 3 (BitVec.ofNat 8 (0x40 + i.toNat)) true)

/-! ## Rejections -/

/-- R155: a write to each read-only register, at its index, is rejected with RO_WRITE, whatever the data. -/
def Obligations.ReadOnlyRegisterWritesAreRejected : Prop :=
  ∀ (s : State) (d : Word),
    decode (mkRequest true 0x00#8 d) = .wrRoId d ∧
    decode (mkRequest true 0x02#8 d) = .wrRoStatus d ∧
    decode (mkRequest true 0x04#8 d) = .wrRoCt d ∧
    decode (mkRequest true 0x05#8 d) = .wrRoRound d ∧
    decode (mkRequest true 0x07#8 d) = .wrRoKcur d ∧
    decode (mkRequest true 0x09#8 d) = .wrRoDbgKey d ∧
    decode (mkRequest true 0x0A#8 d) = .wrRoDbgMix d ∧
    decode (mkRequest true 0x0B#8 d) = .wrRoDbgSub d ∧
    RejectedWith s (exec (.wrRoId d) s) 2 0x00#8 true ∧
    RejectedWith s (exec (.wrRoStatus d) s) 2 0x02#8 true ∧
    RejectedWith s (exec (.wrRoCt d) s) 2 0x04#8 true ∧
    RejectedWith s (exec (.wrRoRound d) s) 2 0x05#8 true ∧
    RejectedWith s (exec (.wrRoKcur d) s) 2 0x07#8 true ∧
    RejectedWith s (exec (.wrRoDbgKey d) s) 2 0x09#8 true ∧
    RejectedWith s (exec (.wrRoDbgMix d) s) 2 0x0A#8 true ∧
    RejectedWith s (exec (.wrRoDbgSub d) s) 2 0x0B#8 true

/-- R156: an access to an unmapped index is rejected with BAD_ADDR and recorded with its direction; and every request for an
unmapped index, whatever its data, is one. -/
def Obligations.UnmappedAccessesAreRejected : Prop :=
  ∀ (s : State) (we : Bool) (a : RegIndex),
    (RejectedWith s (exec (.accUnmapped0C0F we a) s) 1 a we ∧
      RejectedWith s (exec (.accUnmapped203F we a) s) 1 a we ∧
      RejectedWith s (exec (.accUnmapped80FF we a) s) 1 a we) ∧
    ∀ d : Word, mapped a = false → RejectedWith s (exec (decode (mkRequest we a d)) s) 1 a we

/-- R193: a write to CMD of a word with a bit of [63:8] set or with an OP other than 1, 2, 3 is rejected with ILLEGAL_CMD. -/
def Obligations.IllegalCommandWordsAreRejected : Prop :=
  ∀ (s : State) (d : Word),
    RejectedWith s (exec (.cmdIllegal d) s) 5 0x01#8 true ∧
    (d.extractLsb' 8 56 ≠ 0#56 ∨ (d.extractLsb' 0 8 ≠ 1#8 ∧ d.extractLsb' 0 8 ≠ 2#8 ∧ d.extractLsb' 0 8 ≠ 3#8) →
      decode (mkRequest true 0x01#8 d) = .cmdIllegal d)

/-- R215: whatever the request, a rejected one changes nothing but the error record, and its response carries no data. -/
def Obligations.RejectionIsPrecise : Prop :=
  ∀ (i : Instr) (s t : State) (d : Word), exec i s = .next t → t.outstanding = some ⟨true, d⟩ →
    d = 0 ∧ t = { s with err := t.err, errCode := t.errCode, errAddr := t.errAddr, errWr := t.errWr,
                         outstanding := rejectedRsp }

/-- R213: while ERR = 1 no request but CLR_ERR changes the error record; and ERR goes from 0 to 1 by a rejection only. -/
def Obligations.ErrorRecordKeepsFirstRejection : Prop :=
  ∀ (i : Instr) (s t : State), exec i s = .next t →
    (s.err = true → i ≠ .cmdClrErr →
      t.err = true ∧ t.errCode = s.errCode ∧ t.errAddr = s.errAddr ∧ t.errWr = s.errWr) ∧
    (s.err = false → t.err = true → t.outstanding = rejectedRsp) ∧
    (t.outstanding = rejectedRsp → t.err = true)

/-- R211: the checks of a request are made in order; the first that fails gives the cause, and a request that passes them
all is accepted. The premise on KLEN is R37 (a), which StepKeepsInvariant states. -/
def Obligations.FirstFailingCheckGivesTheCause : Prop :=
  ∀ (s : State) (q : Request), s.klen.toNat ≤ 16 →
    (∀ c, firstFailure s q = some c → RejectedWith s (exec (decode q) s) c (reqAddr q) (reqWe q)) ∧
    (firstFailure s q = none → ∃ t v, exec (decode q) s = .next t ∧ t.outstanding = okRead v)

/-! ## Commands -/

/-- R191: the word 2 written to CMD: RESET resets the round state and nothing else; the error record is kept. -/
def Obligations.ResetCommandResetsRoundStateOnly : Prop :=
  decode 0x1010000000000000002#73 = .cmdReset ∧
  ∀ s : State, exec .cmdReset s = .next { s with ct := 0, round := 0, kcur := 0, outstanding := okWrite }

/-- R192: the word 3 written to CMD: CLR_ERR clears the error record and nothing else. -/
def Obligations.ClrErrClearsErrorRecordOnly : Prop :=
  decode 0x1010000000000000003#73 = .cmdClrErr ∧ ∀ s : State, exec .cmdClrErr s =
    .next { s with err := false, errCode := 0, errAddr := 0, errWr := false, outstanding := okWrite }

/-- R180, R181: ROUND's checks in their order, and where they pass one round: the next key, the input, the datapath's
results, the counters and the debug registers, all together. `k` is the key of the slot of R180, which is in the store in
every reachable state (R37 (a)). -/
def Obligations.RoundChecksThenComputes : Prop :=
  decode 0x1010000000000000001#73 = .cmdRound ∧ ∀ s : State,
    (s.klen = 0 → RejectedWith s (exec .cmdRound s) 6 0x01#8 true) ∧
    (s.klen ≠ 0 → ¬ DistinctEntries s.perm → RejectedWith s (exec .cmdRound s) 7 0x01#8 true) ∧
    (s.klen ≠ 0 → DistinctEntries s.perm → s.round = 0xFFFFFFFF#32 → RejectedWith s (exec .cmdRound s) 8 0x01#8 true) ∧
    ∀ (hb : bijective s.perm = true) (k m b : Word), s.klen ≠ 0 → s.round ≠ 0xFFFFFFFF#32 →
      s.keys[slotOf s]? = some k → m = inputOf s ^^^ k → b = substitute s.sbox m →
      exec .cmdRound s = .next
        { s with ct := permute s.perm hb b, round := s.round + 1, kcur := BitVec.ofNat 5 (slotOf s + 1),
                 dbgKey := k, dbgMix := m, dbgSub := b, outstanding := okWrite }

/-- The model's own stop (log entry 5; R30 has no slot above 15): a ROUND whose slot is outside the key store, which no
reachable state has, stops by name. -/
def Obligations.RoundStopsWhereNoKeySlotIs : Prop :=
  ∀ s : State, s.klen ≠ 0 → DistinctEntries s.perm → s.round ≠ 0xFFFFFFFF#32 → 16 ≤ slotOf s →
    exec .cmdRound s = .fault .keySlotAbsent

/-- R183: the round counter never wraps: a ROUND at the largest count is rejected, and any other accepted one counts by one. -/
def Obligations.RoundCounterNeverWraps : Prop :=
  ∀ s t : State, exec .cmdRound s = .next t →
    (t.outstanding = okWrite ∧ t.round.toNat = s.round.toNat + 1) ∨
    (t.outstanding = rejectedRsp ∧ t.round = s.round)

/-! ## Datapath -/

/-- R100: the check accepts a table exactly if its values are pairwise distinct, which is the same as every value 0 to 63
occurring. -/
def Obligations.BijectiveMeansDistinctAndOnto : Prop :=
  ∀ t : PermTable, (bijective t = true ↔ DistinctEntries t) ∧
    (bijective t = true ↔ ∀ p < 64, ∃ i : Fin 64, (t[i]).toNat = p)

/-- R101: every source position i goes to source position t(i), and no other word has those bits; all-zero and all-one words
and the identity table behave as the rule says. -/
def Obligations.PermuteScattersEverySourceBit : Prop :=
  (∀ (t : PermTable) (hb : bijective t = true) (x y : Word),
    y = permute t hb x ↔ ∀ i : Fin 64, y.getLsbD (63 - (t[i]).toNat) = x.getLsbD (63 - i.val)) ∧
  (∀ (t : PermTable) (hb : bijective t = true), permute t hb 0 = 0 ∧
    permute t hb 0xFFFFFFFFFFFFFFFF#64 = 0xFFFFFFFFFFFFFFFF#64) ∧
  (∀ (hb : bijective identityPerm = true) (x : Word), permute identityPerm hb x = x)

/-- R102 (a) to (e): gather form by the inverse table, linearity over XOR, weight, round trip, bit independence. -/
def Obligations.PermutationUnitLaws : Prop :=
  ∀ (t u : PermTable) (ht : bijective t = true) (hu : bijective u = true),
    (∀ i : Fin 64, u[(t[i]).toNat]? = some (BitVec.ofNat 6 i.val)) →
    (∀ (x : Word) (j : Fin 64), (permute t ht x).getLsbD (63 - j.val) = x.getLsbD (63 - (u[j]).toNat)) ∧
    (∀ a b : Word, permute t ht (a ^^^ b) = permute t ht a ^^^ permute t ht b) ∧
    (∀ x : Word, weight (permute t ht x) = weight x) ∧
    (∀ x : Word, permute u hu (permute t ht x) = x) ∧
    (∀ (x y : Word) (i : Fin 64), x.getLsbD (63 - i.val) = y.getLsbD (63 - i.val) →
      (permute t ht x).getLsbD (63 - (t[i]).toNat) = (permute t ht y).getLsbD (63 - (t[i]).toNat))

/-- R104, R105: every lane goes through the S-box by itself, for every S-box; the identity and the constant S-boxes behave as
the rule says. -/
def Obligations.SubstituteMapsEveryLane : Prop :=
  (∀ sb x y : Word, y = substitute sb x ↔
    ∀ n < 16, y.extractLsb' (60 - 4 * n) 4 = sb.extractLsb' (60 - 4 * (x.extractLsb' (60 - 4 * n) 4).toNat) 4) ∧
  (∀ x : Word, substitute 0x0123456789ABCDEF#64 x = x) ∧
  (∀ (c : BitVec 4) (sb x : Word), (∀ n < 16, sb.extractLsb' (60 - 4 * n) 4 = c) → substitute sb x = sb)

/-- R106: the round function is key mix, then substitution, then permutation; with the identity tables it is XOR. -/
def Obligations.RoundFunctionWithIdentityTablesIsXor : Prop :=
  (∀ (t : PermTable) (hb : bijective t = true) (sb x k : Word),
    roundF t hb sb x k = permute t hb (substitute sb (x ^^^ k))) ∧
  (∀ x k : Word, keyMix x k = x ^^^ k ∧ keyMix x x = 0 ∧ keyMix x 0 = x) ∧
  (∀ (hb : bijective identityPerm = true) (x k : Word), roundF identityPerm hb 0x0123456789ABCDEF#64 x k = x ^^^ k)

/-! ## Decoding -/

/-- R83: a well-formed request's encoding decodes to it, with every operand at every value. -/
def Obligations.DecodeOfEncodeIsTheInstruction : Prop := ∀ i : Instr, i.wf = true → decode (encode i) = i

/-- R79, R83: the encoding of what a request decodes to is the request, but for the write data of a read and of an unmapped
access, which takes no part. -/
def Obligations.EncodeOfDecodeIsTheRequest : Prop :=
  ∀ q : Request, encode (decode q) =
    mkRequest (reqWe q) (reqAddr q) (if reqWe q = true ∧ mapped (reqAddr q) = true then reqData q else 0)

/-- R74, R190: performing what the decode table of R83 gives is the step function that R74 and R190 write by address and by
command field, for every request and state. -/
def Obligations.DecodeTableAgreesWithAddressStep : Prop :=
  ∀ (s : State) (q : Request), exec (decode q) s = requestStep q s

/-- Sanity: words written out from R72 and R83 decode to the requests they stand for. -/
def Obligations.SpecWordsDecode : Prop :=
  decode 0x002ffffffffffffffff#73 = .rdStatus ∧ decode 0x0150000000000000000#73 = .rdKey 5 ∧
  decode 0x06a0000000000000000#73 = .rdPerm 42 ∧ decode 0x1010000000000000001#73 = .cmdRound ∧
  decode 0x1010100000000000001#73 = .cmdIllegal 0x0100000000000001#64 ∧
  decode 0x1060000000000000011#73 = .wrKlen 17 ∧ decode 0x17f0000000000000040#73 = .wrPerm 63 64 ∧
  decode 0x1040000000000000000#73 = .wrRoCt 0 ∧ decode 0x1200000000000000000#73 = .accUnmapped203F true 0x20#8

/-! ## The whole machine -/

/-- R37, R23, R214: the invariant holds after reset. -/
def Obligations.InvariantHoldsAtReset : Prop := Inv State.reset

/-- R37 (a) to (f), with a coherent error record and rejected responses without data: every step keeps them, from any state
that has them. -/
def Obligations.StepKeepsInvariant : Prop := ∀ s t : State, Inv s → step s = .next t → Inv t

/-- R79, R37: from a state of the invariant the machine never stops: whatever happens at the port, there is a next state. -/
def Obligations.StepNeverStops : Prop := ∀ s : State, Inv s → ∃ t, step s = .next t

/-- R182: from a round-state reset, n ROUND requests at the port leave CT = X_n and ROUND = n, each answered as accepted. The
two steps of each request and `received` are the model's choices (log entries 1, 3, 4, 12). Sessions with other requests and
cycles between the rounds: SessionKeepsCtTheCipherWord. -/
def Obligations.SessionCiphertextIsIteratedRoundFunction : Prop :=
  ∀ (s : State) (hb : bijective s.perm = true) (n : Nat), s.outstanding = none → s.klen ≠ 0 → s.klen.toNat ≤ 16 →
    s.round = 0 → s.kcur = 0 → 1 ≤ n → n < 2 ^ 32 →
    s.inbox = List.replicate n (.request 0x1010000000000000001#73) →
    ∃ t, core.run (2 * n) s = .next t ∧ t.ct = cipherWord s hb n ∧ t.round.toNat = n ∧
      t.received = s.received ++ List.replicate n ⟨false, 0⟩

/-- R182, R251: where CT is X_ROUND, it stays so over every step but the transfer of a table or key write: over ROUND, and
over whatever else comes between two rounds, a read, a rejection, an idle or a busy cycle, a delivered response, a command, a
MSG or KLEN write, a reset edge. The premise Inv gives the cursor its place (R37 (a), (b), (e)). -/
def Obligations.SessionKeepsCtTheCipherWord : Prop :=
  ∀ s t : State, Inv s → CtIsCipherWord s → ¬ TableWriteTransfers s → step s = .next t → CtIsCipherWord t

/-- R246, R247: the boot sequence, from any state with no request outstanding: it loads the tables, the keys and the message,
every request of it is accepted, and the round state is that of a fresh engine. The two steps of each request and `received`
are the model's choices (log entries 1, 3, 4, 12). -/
def Obligations.BootSequenceBuildsFreshEngine : Prop :=
  ∀ (s : State) (t : PermTable) (r : Vector (BitVec 4) 16) (m : Word) (ks : List Word) (ls : List Line),
    (Pseudo.newEngine t r m ks).expand = some ls → s.outstanding = none → s.inbox = linesEvents ls →
    ∃ u, core.run (2 * ls.length) s = .next u ∧ u.perm = t ∧
      (∀ v : BitVec 4, sboxEntry u.sbox v = r[v.toNat]'(v.isLt)) ∧ u.msg = m ∧ u.klen.toNat = ks.length ∧
      (∀ j < ks.length, u.keys[j]? = ks[j]?) ∧ u.round = 0 ∧ u.ct = 0 ∧ u.kcur = 0 ∧
      u.received = s.received ++ List.replicate ls.length ⟨false, 0⟩

/-- R34: CT, ROUND and KCUR are changed by an accepted ROUND, and by a round-state reset, which exactly three requests
perform: an accepted MSG write, an accepted KLEN write and RESET. -/
def Obligations.OnlyThreeRequestsResetRoundState : Prop :=
  ∀ (i : Instr) (s t : State), exec i s = .next t → i ≠ .cmdRound →
    ((∃ d, i = .wrMsg d) ∨ (∃ d : Word, i = .wrKlen d ∧ 1 ≤ d.toNat ∧ d.toNat ≤ 16) ∨ i = .cmdReset →
      t.ct = 0 ∧ t.round = 0 ∧ t.kcur = 0) ∧
    (¬ ((∃ d, i = .wrMsg d) ∨ (∃ d : Word, i = .wrKlen d ∧ 1 ≤ d.toNat ∧ d.toNat ≤ 16) ∨ i = .cmdReset) →
      t.ct = s.ct ∧ t.round = s.round ∧ t.kcur = s.kcur)

/-- R24, R27, R29 to R31, R33: which request can change which register: MSG, KLEN, SBOX, KEY and PERM each by its own write
only, the DBG registers by ROUND only. -/
def Obligations.EachRegisterHasOneWriter : Prop :=
  ∀ (i : Instr) (s t : State), exec i s = .next t →
    (t.msg ≠ s.msg → ∃ d, i = .wrMsg d) ∧ (t.klen ≠ s.klen → ∃ d, i = .wrKlen d) ∧
    (t.sbox ≠ s.sbox → ∃ d, i = .wrSbox d) ∧ (t.keys ≠ s.keys → ∃ j d, i = .wrKey j d) ∧
    (t.perm ≠ s.perm → ∃ p d, i = .wrPerm p d) ∧
    (t.dbgKey ≠ s.dbgKey ∨ t.dbgMix ≠ s.dbgMix ∨ t.dbgSub ≠ s.dbgSub → i = .cmdRound)

/-- R57: repeating a request leaves the same state and gives the same response, but for an accepted ROUND. -/
def Obligations.RepeatedRequestChangesNothingMore : Prop :=
  ∀ (i : Instr) (s t : State), exec i s = .next t → (i ≠ .cmdRound ∨ t.outstanding = rejectedRsp) → exec i t = .next t

/-- R33, R224: the DBG registers influence no other state and no response but their own reads'. -/
def Obligations.DebugRegistersInfluenceNothingElse : Prop :=
  ∀ (i : Instr) (s₁ s₂ t₁ : State), SameButDebug s₁ s₂ → exec i s₁ = .next t₁ →
    ∃ t₂, exec i s₂ = .next t₂ ∧
      (ReadsDebug i → SameButDebug { t₁ with outstanding := none } { t₂ with outstanding := none }) ∧
      (¬ ReadsDebug i → SameButDebug t₁ t₂)
end

