-- ==== Sys2Proof/Laws/Datapath.lean ====
section
/-! SUPPORT. What the datapath's units compute, bit by bit and nibble by nibble. -/

namespace Sys2Proof.Machine

theorem setBit_getLsbD (y : Word) (p : Nat) (b : Bool) (k : Nat) (hp : p < 64) :
    (setBit y p b).getLsbD k = if k = p then b else y.getLsbD k := by
  unfold setBit
  by_cases hk : k < 64
  · by_cases h : k = p
    · subst h; cases b <;> simp [hk]
    · rcases Nat.lt_or_gt_of_ne h with h' | h'
      · simp [hk, h, h']
      · have : ¬ k < p := by omega
        have h0 : k - p ≠ 0 := by omega
        simp [hk, h, this, h0, BitVec.getLsbD_ofBool]
  · have h : k ≠ p := by omega
    simp [hk, h, BitVec.getLsbD_of_ge y k (by omega)]

/-- `bijectiveFrom` accepts a list of entries exactly if they are distinct and none has been seen. -/
theorem bijectiveFrom_iff (vs : List PermEntry) (seen : BitVec 64) :
    bijectiveFrom vs seen = true ↔ vs.Nodup ∧ ∀ v ∈ vs, seen.getLsbD v.toNat = false := by
  induction vs generalizing seen with
  | nil => simp [bijectiveFrom]
  | cons v vs ih =>
    have hv : v.toNat < 64 := v.isLt
    have key : ∀ u : PermEntry, (seen ||| (1#64 <<< v.toNat)).getLsbD u.toNat
        = (seen.getLsbD u.toNat || decide (u = v)) := by
      intro u
      have hu : u.toNat < 64 := u.isLt
      by_cases h : u = v
      · subst h; simp [hu]
      · have hne : u.toNat ≠ v.toNat := fun e => h (BitVec.eq_of_toNat_eq e)
        rcases Nat.lt_or_gt_of_ne hne with h' | h'
        · simp [h, h']
        · have h0 : u.toNat - v.toNat ≠ 0 := by omega
          simp [h, hu, h0]
    by_cases hs : seen.getLsbD v.toNat = true
    · simp [bijectiveFrom, hs]
    · simp only [bijectiveFrom, hs, Bool.false_eq_true, if_false, ih, List.nodup_cons, List.mem_cons]
      simp only [Bool.not_eq_true] at hs
      constructor
      · rintro ⟨hn, hall⟩
        refine ⟨⟨fun hm => ?_, hn⟩, ?_⟩
        · have := hall v hm; simp [key] at this
        · rintro u (rfl | hu)
          · exact hs
          · have := hall u hu; rw [key] at this; simp at this; exact this.1
      · rintro ⟨⟨hm, hn⟩, hall⟩
        refine ⟨hn, fun u hu => ?_⟩
        rw [key, hall u (.inr hu)]
        simp; rintro rfl; exact hm hu

/-- R100: the check accepts a table exactly if its entries are pairwise distinct. -/
theorem bijective_iff_nodup (t : PermTable) : bijective t = true ↔ t.toList.Nodup := by
  simp [bijective, bijectiveFrom_iff]

theorem bijective_iff_injective (t : PermTable) :
    bijective t = true ↔ ∀ i j : Fin 64, t[i] = t[j] → i = j := by
  rw [bijective_iff_nodup, List.nodup_iff_injective_get]
  have hl : t.toList.length = 64 := by simp
  constructor
  · intro h i j e
    have := @h ⟨i.val, by simp⟩ ⟨j.val, by simp⟩ (by simpa using e)
    simpa [Fin.ext_iff] using this
  · intro h a b e
    have ha := a.isLt; have hb := b.isLt
    simp only [hl] at ha hb
    have := h ⟨a.val, ha⟩ ⟨b.val, hb⟩ (by simpa using e)
    simpa [Fin.ext_iff] using this

/-- The loop of R101 leaves every position that no entry names. -/
theorem permuteFrom_getLsbD_of_not_mem (x : Word) (vs : List PermEntry) (i : Nat) (y : Word) (k : Nat)
    (hk : ∀ v ∈ vs, k ≠ 63 - v.toNat) : (permuteFrom x vs i y).getLsbD k = y.getLsbD k := by
  induction vs generalizing i y with
  | nil => rfl
  | cons v vs ih =>
    rw [permuteFrom, ih _ _ fun u hu => hk u (by simp [hu]), setBit_getLsbD _ _ _ _ (by omega),
      if_neg (hk v (by simp))]

/-- The loop of R101 moves source position `i + n` to the position that entry `n` names. -/
theorem permuteFrom_getLsbD (x : Word) (vs : List PermEntry) (hn : vs.Nodup) (i : Nat) (y : Word) (n : Nat)
    (h : n < vs.length) : (permuteFrom x vs i y).getLsbD (63 - vs[n].toNat) = x.getLsbD (63 - (i + n)) := by
  induction vs generalizing i y n with
  | nil => simp at h
  | cons v vs ih =>
    obtain ⟨hv, hn'⟩ := List.nodup_cons.mp hn
    cases n with
    | zero =>
      rw [permuteFrom, List.getElem_cons_zero, permuteFrom_getLsbD_of_not_mem, setBit_getLsbD _ _ _ _ (by omega)]
      · simp
      · intro u hu e
        have h1 : u.toNat < 64 := u.isLt
        have h2 : v.toNat < 64 := v.isLt
        have : u = v := BitVec.eq_of_toNat_eq (by omega)
        exact hv (this ▸ hu)
    | succ n =>
      rw [permuteFrom, List.getElem_cons_succ, ih hn' _ _ _ (by simpa using h)]
      congr 2; omega

/-- R101: source position i goes to source position t(i). -/
theorem permute_getLsbD (t : PermTable) (ht : bijective t = true) (x : Word) (i : Fin 64) :
    (permute t ht x).getLsbD (63 - (t[i]).toNat) = x.getLsbD (63 - i.val) := by
  have := permuteFrom_getLsbD x t.toList ((bijective_iff_nodup t).mp ht) 0 0 i.val (by simp)
  simpa [permute] using this

/-- Every position in [0,64) is the place some source position goes to. -/
theorem exists_entry (t : PermTable) (ht : bijective t = true) (p : Nat) (hp : p < 64) :
    ∃ i : Fin 64, (t[i]).toNat = p := by
  have hinj : Function.Injective fun i : Fin 64 => (⟨(t[i]).toNat, (t[i]).isLt⟩ : Fin 64) := fun i j e =>
    (bijective_iff_injective t).mp ht i j (BitVec.eq_of_toNat_eq (by simpa using congrArg Fin.val e))
  obtain ⟨i, hi⟩ := (Finite.injective_iff_surjective.mp hinj) ⟨p, hp⟩
  exact ⟨i, congrArg Fin.val hi⟩

/-- A word is what `permute` makes of `x` if it has the bits that R101 gives it. -/
theorem eq_permute_of_getLsbD (t : PermTable) (ht : bijective t = true) (x y : Word)
    (h : ∀ i : Fin 64, y.getLsbD (63 - (t[i]).toNat) = x.getLsbD (63 - i.val)) : y = permute t ht x := by
  refine BitVec.eq_of_getLsbD_eq fun k hk => ?_
  obtain ⟨i, hi⟩ := exists_entry t ht (63 - k) (by omega)
  have e : k = 63 - (t[i]).toNat := by omega
  rw [e, h, permute_getLsbD]

theorem setNib_nib (y : Word) (n m : Nat) (v : BitVec 4) (hn : n < 16) (hm : m < 16) :
    nib (setNib y n v) m = if m = n then v else nib y m := by
  refine BitVec.eq_of_getLsbD_eq fun k hk => ?_
  have h15 : (0xF#64).getLsbD = fun j => decide (j < 4) := by
    funext j
    by_cases hj : j < 64
    · interval_cases j <;> rfl
    · have : ¬ j < 4 := by omega
      simp [BitVec.getLsbD_of_ge _ _ (Nat.le_of_not_lt hj), this]
  have hlt : 60 - 4 * m + k < 64 := by omega
  simp only [nib, setNib, BitVec.getLsbD_extractLsb', hk, decide_true, Bool.true_and, BitVec.getLsbD_or,
    BitVec.getLsbD_and, BitVec.getLsbD_not, hlt, BitVec.getLsbD_shiftLeft, BitVec.getLsbD_setWidth, h15]
  by_cases h : m = n
  · subst h
    simp [hk]; omega
  · rcases Nat.lt_or_gt_of_ne h with h' | h'
    · have h1 : ¬ 60 - 4 * m + k < 60 - 4 * n := by omega
      have h2 : ¬ 60 - 4 * m + k - (60 - 4 * n) < 4 := by omega
      have h3 : v.getLsbD (60 - 4 * m + k - (60 - 4 * n)) = false := BitVec.getLsbD_of_ge _ _ (by omega)
      simp [h, h1, h2, h3, hk]
    · have h1 : 60 - 4 * m + k < 60 - 4 * n := by omega
      simp [h, h1, hk]

/-- The loop of R104 over the lanes below `n`. -/
theorem substitute_loop_nib (sbox x : Word) (n m : Nat) (hn : n ≤ 16) (hm : m < 16) :
    nib ((List.range n).foldl (fun y n => setNib y n (sboxEntry sbox (nib x n))) 0) m
      = if m < n then sboxEntry sbox (nib x m) else 0#4 := by
  induction n with
  | zero => simp [nib]
  | succ n ih =>
    rw [List.range_succ, List.foldl_append, List.foldl_cons, List.foldl_nil, setNib_nib _ _ _ _ (by omega) hm,
      ih (by omega)]
    by_cases h : m = n
    · subst h; simp
    · have : (m < n + 1) = (m < n) := by simp; omega
      simp [h, this]

/-- R104: every lane goes through the S-box by itself. -/
theorem substitute_nib (sbox x : Word) (n : Nat) (hn : n < 16) :
    nib (substitute sbox x) n = sboxEntry sbox (nib x n) := by
  rw [substitute, substitute_loop_nib _ _ _ _ (Nat.le_refl _) hn, if_pos hn]

/-- Two words with the same 16 nibbles are equal. -/
theorem word_eq_of_nib (x y : Word) (h : ∀ n < 16, nib x n = nib y n) : x = y := by
  refine BitVec.eq_of_getLsbD_eq fun k hk => ?_
  have := congrArg (fun v => v.getLsbD (k % 4)) (h (15 - k / 4) (by omega))
  have hk4 : k % 4 < 4 := Nat.mod_lt _ (by omega)
  have e : 60 - 4 * (15 - k / 4) + k % 4 = k := by omega
  simpa [nib, BitVec.getLsbD_extractLsb', hk4, e] using this

end Sys2Proof.Machine
end

