-- ==== Sys2Proof/Laws/Decode.lean ====
section
/-! SUPPORT. The request's fields and the index fields: what is put together comes apart again. -/

namespace Sys2Proof

/-- A request bit by bit (R72). -/
theorem mkRequest_getLsbD (we : Bool) (a : RegIndex) (d : Word) (k : Nat) (hk : k < 73) :
    (mkRequest we a d).getLsbD k = if k < 64 then d.getLsbD k else if k < 72 then a.getLsbD (k - 64) else we := by
  unfold mkRequest
  by_cases h1 : k < 64
  · have h2 : k < 72 := by omega
    simp [h1, h2, hk]
  · by_cases h2 : k < 72
    · simp [h1, h2, hk, BitVec.getLsbD_of_ge d k (by omega)]
    · have h3 : k = 72 := by omega
      subst h3
      simp

@[simp] theorem reqWe_mkRequest (we : Bool) (a : RegIndex) (d : Word) : reqWe (mkRequest we a d) = we := by
  rw [reqWe, mkRequest_getLsbD _ _ _ _ (by omega), if_neg (by omega), if_neg (by omega)]

@[simp] theorem reqAddr_mkRequest (we : Bool) (a : RegIndex) (d : Word) : reqAddr (mkRequest we a d) = a := by
  refine BitVec.eq_of_getLsbD_eq fun k hk => ?_
  rw [reqAddr, BitVec.getLsbD_extractLsb', mkRequest_getLsbD _ _ _ _ (by omega), if_neg (by omega),
    if_pos (by omega), Nat.add_sub_cancel_left, decide_eq_true hk, Bool.true_and]

@[simp] theorem reqData_mkRequest (we : Bool) (a : RegIndex) (d : Word) : reqData (mkRequest we a d) = d := by
  refine BitVec.eq_of_getLsbD_eq fun k hk => ?_
  rw [reqData, BitVec.getLsbD_extractLsb', mkRequest_getLsbD _ _ _ _ (by omega), if_pos (by omega),
    Nat.zero_add, decide_eq_true hk, Bool.true_and]

/-- A request is its three fields (R72). -/
theorem mkRequest_fields (q : Request) : mkRequest (reqWe q) (reqAddr q) (reqData q) = q := by
  refine BitVec.eq_of_getLsbD_eq fun k hk => ?_
  rw [mkRequest_getLsbD _ _ _ _ hk]
  split
  · simp [reqData, *]
  · split
    · have h1 : k - 64 < 8 := by omega
      have h2 : 64 + (k - 64) = k := by omega
      simp [reqAddr, h1, h2]
    · have h3 : k = 72 := by omega
      subst h3; rfl

@[simp] theorem addrKeySlot_keyIndex (j : KeySlot) : addrKeySlot (keyIndex j) = j := by revert j; decide
@[simp] theorem addrPermEntry_permIndex (i : PermEntry) : addrPermEntry (permIndex i) = i := by revert i; decide
@[simp] theorem keyIndex_high (j : KeySlot) : (keyIndex j).extractLsb' 4 4 = 0b0001#4 := by revert j; decide
@[simp] theorem permIndex_high (i : PermEntry) : (permIndex i).extractLsb' 6 2 = 0b01#2 := by revert i; decide

/-- No index of a key slot is a fixed register's. -/
theorem keyIndex_range (j : KeySlot) : 0x10#8 ≤ keyIndex j ∧ keyIndex j ≤ 0x1F#8 := by revert j; decide
/-- No index of a permutation entry is another register's. -/
theorem permIndex_range (i : PermEntry) : 0x40#8 ≤ permIndex i ∧ permIndex i ≤ 0x7F#8 := by revert i; decide

/-- The unmapped rows split the unmapped indices. -/
theorem decodeUnmapped_wf : ∀ (we : Bool) (a : RegIndex),
    ¬ a ≤ 0x0B#8 → ¬ a.extractLsb' 4 4 = 0b0001#4 → ¬ a.extractLsb' 6 2 = 0b01#2 →
      (decodeUnmapped we a).wf = true := by decide +kernel

theorem decodeRead_wf : ∀ a : RegIndex, (decodeRead a).wf = true := by decide +kernel

theorem decodeCommand_wf (d : Word) : (decodeCommand d).wf = true := by
  unfold decodeCommand; split
  · rfl
  · split
    · rfl
    · split
      · rfl
      · simp_all [Instr.wf]

theorem decodeWrite_wf (a : RegIndex) (d : Word) : (decodeWrite a d).wf = true := by
  unfold decodeWrite
  by_cases h0 : a ≤ 0x0B#8
  · have ha : a.toNat < 12 := by simpa [BitVec.le_def, Nat.lt_succ_iff] using h0
    have e : a = BitVec.ofNat 8 a.toNat := by simp
    generalize a.toNat = n at *
    subst e
    interval_cases n <;> first | exact decodeCommand_wf d | simp [Instr.wf]
  · have hne : ∀ n < 12, a ≠ BitVec.ofNat 8 n := by
      rintro n hn rfl
      apply h0
      interval_cases n <;> decide
    have e : ∀ n < 12, (a = BitVec.ofNat 8 n) = False := fun n hn => eq_false (hne n hn)
    simp only [e 0 (by omega), e 1 (by omega), e 2 (by omega),
      e 3 (by omega), e 4 (by omega), e 5 (by omega), e 6 (by omega), e 7 (by omega), e 8 (by omega),
      e 9 (by omega), e 10 (by omega), e 11 (by omega), if_false]
    split
    · rfl
    · split
      · rfl
      · exact decodeUnmapped_wf _ _ h0 ‹_› ‹_›

/-- Whatever the request, the decoder's answer is well-formed (R79). -/
theorem decode_wf (q : Request) : (decode q).wf = true := by
  unfold decode; split
  · exact decodeWrite_wf _ _
  · exact decodeRead_wf _

/-! The address map of R36 and R74 against the decoder's index patterns: 256 indices, checked one by one. -/

theorem key_pattern_iff : ∀ a : RegIndex, a.extractLsb' 4 4 = 0b0001#4 ↔ 0x10#8 ≤ a ∧ a ≤ 0x1F#8 := by decide +kernel

theorem perm_pattern_iff : ∀ a : RegIndex, a.extractLsb' 6 2 = 0b01#2 ↔ 0x40#8 ≤ a ∧ a ≤ 0x7F#8 := by decide +kernel

theorem keyIndex_addrKeySlot : ∀ a : RegIndex, 0x10#8 ≤ a → a ≤ 0x1F#8 → keyIndex (addrKeySlot a) = a := by
  decide +kernel

theorem permIndex_addrPermEntry : ∀ a : RegIndex, 0x40#8 ≤ a → a ≤ 0x7F#8 → permIndex (addrPermEntry a) = a := by
  decide +kernel

/-- A mapped index is a fixed register's, a key slot's or a permutation entry's. -/
theorem mapped_iff : ∀ a : RegIndex, Machine.mapped a = true ↔
    a ≤ 0x0B#8 ∨ (0x10#8 ≤ a ∧ a ≤ 0x1F#8) ∨ (0x40#8 ≤ a ∧ a ≤ 0x7F#8) := by decide +kernel

theorem readOnly_le : ∀ a : RegIndex, Machine.readOnly a = true → a ≤ 0x0B#8 := by decide +kernel

/-- An index of a fixed register is one of twelve. -/
theorem fixedIndex_cases {a : RegIndex} (h : a ≤ 0x0B#8) : ∃ n < 12, a = BitVec.ofNat 8 n :=
  ⟨a.toNat, by simpa [BitVec.le_def, Nat.lt_succ_iff] using h, by simp⟩

end Sys2Proof
end

