-- ==== Sys2Proof/Laws/State.lean ====
section
/-! SUPPORT. The state's update laws: what each named update makes of each field. -/

namespace Sys2Proof.Machine

@[simp] theorem respond_msg (s : State) (e : Bool) (d : Word) : (s.respond e d).msg = s.msg := rfl
@[simp] theorem respond_ct (s : State) (e : Bool) (d : Word) : (s.respond e d).ct = s.ct := rfl
@[simp] theorem respond_round (s : State) (e : Bool) (d : Word) : (s.respond e d).round = s.round := rfl
@[simp] theorem respond_klen (s : State) (e : Bool) (d : Word) : (s.respond e d).klen = s.klen := rfl
@[simp] theorem respond_kcur (s : State) (e : Bool) (d : Word) : (s.respond e d).kcur = s.kcur := rfl
@[simp] theorem respond_sbox (s : State) (e : Bool) (d : Word) : (s.respond e d).sbox = s.sbox := rfl
@[simp] theorem respond_keys (s : State) (e : Bool) (d : Word) : (s.respond e d).keys = s.keys := rfl
@[simp] theorem respond_perm (s : State) (e : Bool) (d : Word) : (s.respond e d).perm = s.perm := rfl
@[simp] theorem respond_dbgKey (s : State) (e : Bool) (d : Word) : (s.respond e d).dbgKey = s.dbgKey := rfl
@[simp] theorem respond_dbgMix (s : State) (e : Bool) (d : Word) : (s.respond e d).dbgMix = s.dbgMix := rfl
@[simp] theorem respond_dbgSub (s : State) (e : Bool) (d : Word) : (s.respond e d).dbgSub = s.dbgSub := rfl
@[simp] theorem respond_err (s : State) (e : Bool) (d : Word) : (s.respond e d).err = s.err := rfl
@[simp] theorem respond_errCode (s : State) (e : Bool) (d : Word) : (s.respond e d).errCode = s.errCode := rfl
@[simp] theorem respond_errAddr (s : State) (e : Bool) (d : Word) : (s.respond e d).errAddr = s.errAddr := rfl
@[simp] theorem respond_errWr (s : State) (e : Bool) (d : Word) : (s.respond e d).errWr = s.errWr := rfl
@[simp] theorem respond_outstanding (s : State) (e : Bool) (d : Word) : (s.respond e d).outstanding = some ⟨e, d⟩ := rfl
@[simp] theorem respond_inbox (s : State) (e : Bool) (d : Word) : (s.respond e d).inbox = s.inbox := rfl
@[simp] theorem respond_received (s : State) (e : Bool) (d : Word) : (s.respond e d).received = s.received := rfl

@[simp] theorem clearError_msg (s : State) : (s.clearError).msg = s.msg := rfl
@[simp] theorem clearError_ct (s : State) : (s.clearError).ct = s.ct := rfl
@[simp] theorem clearError_round (s : State) : (s.clearError).round = s.round := rfl
@[simp] theorem clearError_klen (s : State) : (s.clearError).klen = s.klen := rfl
@[simp] theorem clearError_kcur (s : State) : (s.clearError).kcur = s.kcur := rfl
@[simp] theorem clearError_sbox (s : State) : (s.clearError).sbox = s.sbox := rfl
@[simp] theorem clearError_keys (s : State) : (s.clearError).keys = s.keys := rfl
@[simp] theorem clearError_perm (s : State) : (s.clearError).perm = s.perm := rfl
@[simp] theorem clearError_dbgKey (s : State) : (s.clearError).dbgKey = s.dbgKey := rfl
@[simp] theorem clearError_dbgMix (s : State) : (s.clearError).dbgMix = s.dbgMix := rfl
@[simp] theorem clearError_dbgSub (s : State) : (s.clearError).dbgSub = s.dbgSub := rfl
@[simp] theorem clearError_err (s : State) : (s.clearError).err = false := rfl
@[simp] theorem clearError_errCode (s : State) : (s.clearError).errCode = 0 := rfl
@[simp] theorem clearError_errAddr (s : State) : (s.clearError).errAddr = 0 := rfl
@[simp] theorem clearError_errWr (s : State) : (s.clearError).errWr = false := rfl
@[simp] theorem clearError_outstanding (s : State) : (s.clearError).outstanding = s.outstanding := rfl
@[simp] theorem clearError_inbox (s : State) : (s.clearError).inbox = s.inbox := rfl
@[simp] theorem clearError_received (s : State) : (s.clearError).received = s.received := rfl

@[simp] theorem roundStateReset_msg (s : State) : (s.roundStateReset).msg = s.msg := rfl
@[simp] theorem roundStateReset_ct (s : State) : (s.roundStateReset).ct = 0 := rfl
@[simp] theorem roundStateReset_round (s : State) : (s.roundStateReset).round = 0 := rfl
@[simp] theorem roundStateReset_klen (s : State) : (s.roundStateReset).klen = s.klen := rfl
@[simp] theorem roundStateReset_kcur (s : State) : (s.roundStateReset).kcur = 0 := rfl
@[simp] theorem roundStateReset_sbox (s : State) : (s.roundStateReset).sbox = s.sbox := rfl
@[simp] theorem roundStateReset_keys (s : State) : (s.roundStateReset).keys = s.keys := rfl
@[simp] theorem roundStateReset_perm (s : State) : (s.roundStateReset).perm = s.perm := rfl
@[simp] theorem roundStateReset_dbgKey (s : State) : (s.roundStateReset).dbgKey = s.dbgKey := rfl
@[simp] theorem roundStateReset_dbgMix (s : State) : (s.roundStateReset).dbgMix = s.dbgMix := rfl
@[simp] theorem roundStateReset_dbgSub (s : State) : (s.roundStateReset).dbgSub = s.dbgSub := rfl
@[simp] theorem roundStateReset_err (s : State) : (s.roundStateReset).err = s.err := rfl
@[simp] theorem roundStateReset_errCode (s : State) : (s.roundStateReset).errCode = s.errCode := rfl
@[simp] theorem roundStateReset_errAddr (s : State) : (s.roundStateReset).errAddr = s.errAddr := rfl
@[simp] theorem roundStateReset_errWr (s : State) : (s.roundStateReset).errWr = s.errWr := rfl
@[simp] theorem roundStateReset_outstanding (s : State) : (s.roundStateReset).outstanding = s.outstanding := rfl
@[simp] theorem roundStateReset_inbox (s : State) : (s.roundStateReset).inbox = s.inbox := rfl
@[simp] theorem roundStateReset_received (s : State) : (s.roundStateReset).received = s.received := rfl

@[simp] theorem setMsg_msg (s : State) (d : Word) : (s.setMsg d).msg = d := rfl
@[simp] theorem setMsg_ct (s : State) (d : Word) : (s.setMsg d).ct = s.ct := rfl
@[simp] theorem setMsg_round (s : State) (d : Word) : (s.setMsg d).round = s.round := rfl
@[simp] theorem setMsg_klen (s : State) (d : Word) : (s.setMsg d).klen = s.klen := rfl
@[simp] theorem setMsg_kcur (s : State) (d : Word) : (s.setMsg d).kcur = s.kcur := rfl
@[simp] theorem setMsg_sbox (s : State) (d : Word) : (s.setMsg d).sbox = s.sbox := rfl
@[simp] theorem setMsg_keys (s : State) (d : Word) : (s.setMsg d).keys = s.keys := rfl
@[simp] theorem setMsg_perm (s : State) (d : Word) : (s.setMsg d).perm = s.perm := rfl
@[simp] theorem setMsg_dbgKey (s : State) (d : Word) : (s.setMsg d).dbgKey = s.dbgKey := rfl
@[simp] theorem setMsg_dbgMix (s : State) (d : Word) : (s.setMsg d).dbgMix = s.dbgMix := rfl
@[simp] theorem setMsg_dbgSub (s : State) (d : Word) : (s.setMsg d).dbgSub = s.dbgSub := rfl
@[simp] theorem setMsg_err (s : State) (d : Word) : (s.setMsg d).err = s.err := rfl
@[simp] theorem setMsg_errCode (s : State) (d : Word) : (s.setMsg d).errCode = s.errCode := rfl
@[simp] theorem setMsg_errAddr (s : State) (d : Word) : (s.setMsg d).errAddr = s.errAddr := rfl
@[simp] theorem setMsg_errWr (s : State) (d : Word) : (s.setMsg d).errWr = s.errWr := rfl
@[simp] theorem setMsg_outstanding (s : State) (d : Word) : (s.setMsg d).outstanding = s.outstanding := rfl
@[simp] theorem setMsg_inbox (s : State) (d : Word) : (s.setMsg d).inbox = s.inbox := rfl
@[simp] theorem setMsg_received (s : State) (d : Word) : (s.setMsg d).received = s.received := rfl

@[simp] theorem setKlen_msg (s : State) (n : BitVec 5) : (s.setKlen n).msg = s.msg := rfl
@[simp] theorem setKlen_ct (s : State) (n : BitVec 5) : (s.setKlen n).ct = s.ct := rfl
@[simp] theorem setKlen_round (s : State) (n : BitVec 5) : (s.setKlen n).round = s.round := rfl
@[simp] theorem setKlen_klen (s : State) (n : BitVec 5) : (s.setKlen n).klen = n := rfl
@[simp] theorem setKlen_kcur (s : State) (n : BitVec 5) : (s.setKlen n).kcur = s.kcur := rfl
@[simp] theorem setKlen_sbox (s : State) (n : BitVec 5) : (s.setKlen n).sbox = s.sbox := rfl
@[simp] theorem setKlen_keys (s : State) (n : BitVec 5) : (s.setKlen n).keys = s.keys := rfl
@[simp] theorem setKlen_perm (s : State) (n : BitVec 5) : (s.setKlen n).perm = s.perm := rfl
@[simp] theorem setKlen_dbgKey (s : State) (n : BitVec 5) : (s.setKlen n).dbgKey = s.dbgKey := rfl
@[simp] theorem setKlen_dbgMix (s : State) (n : BitVec 5) : (s.setKlen n).dbgMix = s.dbgMix := rfl
@[simp] theorem setKlen_dbgSub (s : State) (n : BitVec 5) : (s.setKlen n).dbgSub = s.dbgSub := rfl
@[simp] theorem setKlen_err (s : State) (n : BitVec 5) : (s.setKlen n).err = s.err := rfl
@[simp] theorem setKlen_errCode (s : State) (n : BitVec 5) : (s.setKlen n).errCode = s.errCode := rfl
@[simp] theorem setKlen_errAddr (s : State) (n : BitVec 5) : (s.setKlen n).errAddr = s.errAddr := rfl
@[simp] theorem setKlen_errWr (s : State) (n : BitVec 5) : (s.setKlen n).errWr = s.errWr := rfl
@[simp] theorem setKlen_outstanding (s : State) (n : BitVec 5) : (s.setKlen n).outstanding = s.outstanding := rfl
@[simp] theorem setKlen_inbox (s : State) (n : BitVec 5) : (s.setKlen n).inbox = s.inbox := rfl
@[simp] theorem setKlen_received (s : State) (n : BitVec 5) : (s.setKlen n).received = s.received := rfl

@[simp] theorem setSbox_msg (s : State) (d : Word) : (s.setSbox d).msg = s.msg := rfl
@[simp] theorem setSbox_ct (s : State) (d : Word) : (s.setSbox d).ct = s.ct := rfl
@[simp] theorem setSbox_round (s : State) (d : Word) : (s.setSbox d).round = s.round := rfl
@[simp] theorem setSbox_klen (s : State) (d : Word) : (s.setSbox d).klen = s.klen := rfl
@[simp] theorem setSbox_kcur (s : State) (d : Word) : (s.setSbox d).kcur = s.kcur := rfl
@[simp] theorem setSbox_sbox (s : State) (d : Word) : (s.setSbox d).sbox = d := rfl
@[simp] theorem setSbox_keys (s : State) (d : Word) : (s.setSbox d).keys = s.keys := rfl
@[simp] theorem setSbox_perm (s : State) (d : Word) : (s.setSbox d).perm = s.perm := rfl
@[simp] theorem setSbox_dbgKey (s : State) (d : Word) : (s.setSbox d).dbgKey = s.dbgKey := rfl
@[simp] theorem setSbox_dbgMix (s : State) (d : Word) : (s.setSbox d).dbgMix = s.dbgMix := rfl
@[simp] theorem setSbox_dbgSub (s : State) (d : Word) : (s.setSbox d).dbgSub = s.dbgSub := rfl
@[simp] theorem setSbox_err (s : State) (d : Word) : (s.setSbox d).err = s.err := rfl
@[simp] theorem setSbox_errCode (s : State) (d : Word) : (s.setSbox d).errCode = s.errCode := rfl
@[simp] theorem setSbox_errAddr (s : State) (d : Word) : (s.setSbox d).errAddr = s.errAddr := rfl
@[simp] theorem setSbox_errWr (s : State) (d : Word) : (s.setSbox d).errWr = s.errWr := rfl
@[simp] theorem setSbox_outstanding (s : State) (d : Word) : (s.setSbox d).outstanding = s.outstanding := rfl
@[simp] theorem setSbox_inbox (s : State) (d : Word) : (s.setSbox d).inbox = s.inbox := rfl
@[simp] theorem setSbox_received (s : State) (d : Word) : (s.setSbox d).received = s.received := rfl

@[simp] theorem setKey_msg (s : State) (j : KeySlot) (d : Word) : (s.setKey j d).msg = s.msg := rfl
@[simp] theorem setKey_ct (s : State) (j : KeySlot) (d : Word) : (s.setKey j d).ct = s.ct := rfl
@[simp] theorem setKey_round (s : State) (j : KeySlot) (d : Word) : (s.setKey j d).round = s.round := rfl
@[simp] theorem setKey_klen (s : State) (j : KeySlot) (d : Word) : (s.setKey j d).klen = s.klen := rfl
@[simp] theorem setKey_kcur (s : State) (j : KeySlot) (d : Word) : (s.setKey j d).kcur = s.kcur := rfl
@[simp] theorem setKey_sbox (s : State) (j : KeySlot) (d : Word) : (s.setKey j d).sbox = s.sbox := rfl
@[simp] theorem setKey_keys (s : State) (j : KeySlot) (d : Word) : (s.setKey j d).keys = s.keys.set j.toNat d (by have := j.isLt; omega) := rfl
@[simp] theorem setKey_perm (s : State) (j : KeySlot) (d : Word) : (s.setKey j d).perm = s.perm := rfl
@[simp] theorem setKey_dbgKey (s : State) (j : KeySlot) (d : Word) : (s.setKey j d).dbgKey = s.dbgKey := rfl
@[simp] theorem setKey_dbgMix (s : State) (j : KeySlot) (d : Word) : (s.setKey j d).dbgMix = s.dbgMix := rfl
@[simp] theorem setKey_dbgSub (s : State) (j : KeySlot) (d : Word) : (s.setKey j d).dbgSub = s.dbgSub := rfl
@[simp] theorem setKey_err (s : State) (j : KeySlot) (d : Word) : (s.setKey j d).err = s.err := rfl
@[simp] theorem setKey_errCode (s : State) (j : KeySlot) (d : Word) : (s.setKey j d).errCode = s.errCode := rfl
@[simp] theorem setKey_errAddr (s : State) (j : KeySlot) (d : Word) : (s.setKey j d).errAddr = s.errAddr := rfl
@[simp] theorem setKey_errWr (s : State) (j : KeySlot) (d : Word) : (s.setKey j d).errWr = s.errWr := rfl
@[simp] theorem setKey_outstanding (s : State) (j : KeySlot) (d : Word) : (s.setKey j d).outstanding = s.outstanding := rfl
@[simp] theorem setKey_inbox (s : State) (j : KeySlot) (d : Word) : (s.setKey j d).inbox = s.inbox := rfl
@[simp] theorem setKey_received (s : State) (j : KeySlot) (d : Word) : (s.setKey j d).received = s.received := rfl

@[simp] theorem setPerm_msg (s : State) (i v : PermEntry) : (s.setPerm i v).msg = s.msg := rfl
@[simp] theorem setPerm_ct (s : State) (i v : PermEntry) : (s.setPerm i v).ct = s.ct := rfl
@[simp] theorem setPerm_round (s : State) (i v : PermEntry) : (s.setPerm i v).round = s.round := rfl
@[simp] theorem setPerm_klen (s : State) (i v : PermEntry) : (s.setPerm i v).klen = s.klen := rfl
@[simp] theorem setPerm_kcur (s : State) (i v : PermEntry) : (s.setPerm i v).kcur = s.kcur := rfl
@[simp] theorem setPerm_sbox (s : State) (i v : PermEntry) : (s.setPerm i v).sbox = s.sbox := rfl
@[simp] theorem setPerm_keys (s : State) (i v : PermEntry) : (s.setPerm i v).keys = s.keys := rfl
@[simp] theorem setPerm_perm (s : State) (i v : PermEntry) : (s.setPerm i v).perm = s.perm.set i.toNat v (by have := i.isLt; omega) := rfl
@[simp] theorem setPerm_dbgKey (s : State) (i v : PermEntry) : (s.setPerm i v).dbgKey = s.dbgKey := rfl
@[simp] theorem setPerm_dbgMix (s : State) (i v : PermEntry) : (s.setPerm i v).dbgMix = s.dbgMix := rfl
@[simp] theorem setPerm_dbgSub (s : State) (i v : PermEntry) : (s.setPerm i v).dbgSub = s.dbgSub := rfl
@[simp] theorem setPerm_err (s : State) (i v : PermEntry) : (s.setPerm i v).err = s.err := rfl
@[simp] theorem setPerm_errCode (s : State) (i v : PermEntry) : (s.setPerm i v).errCode = s.errCode := rfl
@[simp] theorem setPerm_errAddr (s : State) (i v : PermEntry) : (s.setPerm i v).errAddr = s.errAddr := rfl
@[simp] theorem setPerm_errWr (s : State) (i v : PermEntry) : (s.setPerm i v).errWr = s.errWr := rfl
@[simp] theorem setPerm_outstanding (s : State) (i v : PermEntry) : (s.setPerm i v).outstanding = s.outstanding := rfl
@[simp] theorem setPerm_inbox (s : State) (i v : PermEntry) : (s.setPerm i v).inbox = s.inbox := rfl
@[simp] theorem setPerm_received (s : State) (i v : PermEntry) : (s.setPerm i v).received = s.received := rfl

@[simp] theorem commitRound_msg (s : State) (k m b c : Word) (n : BitVec 32)
  (u : BitVec 5) : (s.commitRound k m b c n u).msg = s.msg := rfl
@[simp] theorem commitRound_ct (s : State) (k m b c : Word) (n : BitVec 32)
  (u : BitVec 5) : (s.commitRound k m b c n u).ct = c := rfl
@[simp] theorem commitRound_round (s : State) (k m b c : Word) (n : BitVec 32)
  (u : BitVec 5) : (s.commitRound k m b c n u).round = n := rfl
@[simp] theorem commitRound_klen (s : State) (k m b c : Word) (n : BitVec 32)
  (u : BitVec 5) : (s.commitRound k m b c n u).klen = s.klen := rfl
@[simp] theorem commitRound_kcur (s : State) (k m b c : Word) (n : BitVec 32)
  (u : BitVec 5) : (s.commitRound k m b c n u).kcur = u := rfl
@[simp] theorem commitRound_sbox (s : State) (k m b c : Word) (n : BitVec 32)
  (u : BitVec 5) : (s.commitRound k m b c n u).sbox = s.sbox := rfl
@[simp] theorem commitRound_keys (s : State) (k m b c : Word) (n : BitVec 32)
  (u : BitVec 5) : (s.commitRound k m b c n u).keys = s.keys := rfl
@[simp] theorem commitRound_perm (s : State) (k m b c : Word) (n : BitVec 32)
  (u : BitVec 5) : (s.commitRound k m b c n u).perm = s.perm := rfl
@[simp] theorem commitRound_dbgKey (s : State) (k m b c : Word) (n : BitVec 32)
  (u : BitVec 5) : (s.commitRound k m b c n u).dbgKey = k := rfl
@[simp] theorem commitRound_dbgMix (s : State) (k m b c : Word) (n : BitVec 32)
  (u : BitVec 5) : (s.commitRound k m b c n u).dbgMix = m := rfl
@[simp] theorem commitRound_dbgSub (s : State) (k m b c : Word) (n : BitVec 32)
  (u : BitVec 5) : (s.commitRound k m b c n u).dbgSub = b := rfl
@[simp] theorem commitRound_err (s : State) (k m b c : Word) (n : BitVec 32)
  (u : BitVec 5) : (s.commitRound k m b c n u).err = s.err := rfl
@[simp] theorem commitRound_errCode (s : State) (k m b c : Word) (n : BitVec 32)
  (u : BitVec 5) : (s.commitRound k m b c n u).errCode = s.errCode := rfl
@[simp] theorem commitRound_errAddr (s : State) (k m b c : Word) (n : BitVec 32)
  (u : BitVec 5) : (s.commitRound k m b c n u).errAddr = s.errAddr := rfl
@[simp] theorem commitRound_errWr (s : State) (k m b c : Word) (n : BitVec 32)
  (u : BitVec 5) : (s.commitRound k m b c n u).errWr = s.errWr := rfl
@[simp] theorem commitRound_outstanding (s : State) (k m b c : Word) (n : BitVec 32)
  (u : BitVec 5) : (s.commitRound k m b c n u).outstanding = s.outstanding := rfl
@[simp] theorem commitRound_inbox (s : State) (k m b c : Word) (n : BitVec 32)
  (u : BitVec 5) : (s.commitRound k m b c n u).inbox = s.inbox := rfl
@[simp] theorem commitRound_received (s : State) (k m b c : Word) (n : BitVec 32)
  (u : BitVec 5) : (s.commitRound k m b c n u).received = s.received := rfl

@[simp] theorem hardwareReset_msg (s : State) (rest : List PortEvent) : (hardwareReset s rest).msg = State.reset.msg := rfl
@[simp] theorem hardwareReset_ct (s : State) (rest : List PortEvent) : (hardwareReset s rest).ct = State.reset.ct := rfl
@[simp] theorem hardwareReset_round (s : State) (rest : List PortEvent) : (hardwareReset s rest).round = State.reset.round := rfl
@[simp] theorem hardwareReset_klen (s : State) (rest : List PortEvent) : (hardwareReset s rest).klen = State.reset.klen := rfl
@[simp] theorem hardwareReset_kcur (s : State) (rest : List PortEvent) : (hardwareReset s rest).kcur = State.reset.kcur := rfl
@[simp] theorem hardwareReset_sbox (s : State) (rest : List PortEvent) : (hardwareReset s rest).sbox = State.reset.sbox := rfl
@[simp] theorem hardwareReset_keys (s : State) (rest : List PortEvent) : (hardwareReset s rest).keys = State.reset.keys := rfl
@[simp] theorem hardwareReset_perm (s : State) (rest : List PortEvent) : (hardwareReset s rest).perm = State.reset.perm := rfl
@[simp] theorem hardwareReset_dbgKey (s : State) (rest : List PortEvent) : (hardwareReset s rest).dbgKey = State.reset.dbgKey := rfl
@[simp] theorem hardwareReset_dbgMix (s : State) (rest : List PortEvent) : (hardwareReset s rest).dbgMix = State.reset.dbgMix := rfl
@[simp] theorem hardwareReset_dbgSub (s : State) (rest : List PortEvent) : (hardwareReset s rest).dbgSub = State.reset.dbgSub := rfl
@[simp] theorem hardwareReset_err (s : State) (rest : List PortEvent) : (hardwareReset s rest).err = State.reset.err := rfl
@[simp] theorem hardwareReset_errCode (s : State) (rest : List PortEvent) : (hardwareReset s rest).errCode = State.reset.errCode := rfl
@[simp] theorem hardwareReset_errAddr (s : State) (rest : List PortEvent) : (hardwareReset s rest).errAddr = State.reset.errAddr := rfl
@[simp] theorem hardwareReset_errWr (s : State) (rest : List PortEvent) : (hardwareReset s rest).errWr = State.reset.errWr := rfl
@[simp] theorem hardwareReset_outstanding (s : State) (rest : List PortEvent) : (hardwareReset s rest).outstanding = State.reset.outstanding := rfl
@[simp] theorem hardwareReset_inbox (s : State) (rest : List PortEvent) : (hardwareReset s rest).inbox = rest := rfl
@[simp] theorem hardwareReset_received (s : State) (rest : List PortEvent) : (hardwareReset s rest).received = s.received := rfl

@[simp] theorem offer_msg (s : State) (q : Request) : (s.offer q).msg = s.msg := rfl
@[simp] theorem offer_ct (s : State) (q : Request) : (s.offer q).ct = s.ct := rfl
@[simp] theorem offer_round (s : State) (q : Request) : (s.offer q).round = s.round := rfl
@[simp] theorem offer_klen (s : State) (q : Request) : (s.offer q).klen = s.klen := rfl
@[simp] theorem offer_kcur (s : State) (q : Request) : (s.offer q).kcur = s.kcur := rfl
@[simp] theorem offer_sbox (s : State) (q : Request) : (s.offer q).sbox = s.sbox := rfl
@[simp] theorem offer_keys (s : State) (q : Request) : (s.offer q).keys = s.keys := rfl
@[simp] theorem offer_perm (s : State) (q : Request) : (s.offer q).perm = s.perm := rfl
@[simp] theorem offer_dbgKey (s : State) (q : Request) : (s.offer q).dbgKey = s.dbgKey := rfl
@[simp] theorem offer_dbgMix (s : State) (q : Request) : (s.offer q).dbgMix = s.dbgMix := rfl
@[simp] theorem offer_dbgSub (s : State) (q : Request) : (s.offer q).dbgSub = s.dbgSub := rfl
@[simp] theorem offer_err (s : State) (q : Request) : (s.offer q).err = s.err := rfl
@[simp] theorem offer_errCode (s : State) (q : Request) : (s.offer q).errCode = s.errCode := rfl
@[simp] theorem offer_errAddr (s : State) (q : Request) : (s.offer q).errAddr = s.errAddr := rfl
@[simp] theorem offer_errWr (s : State) (q : Request) : (s.offer q).errWr = s.errWr := rfl
@[simp] theorem offer_outstanding (s : State) (q : Request) : (s.offer q).outstanding = none := rfl
@[simp] theorem offer_inbox (s : State) (q : Request) : (s.offer q).inbox = .request q :: s.inbox := rfl
@[simp] theorem offer_received (s : State) (q : Request) : (s.offer q).received = s.received := rfl

@[simp] theorem recordError_msg (s : State) (c : Cause) (a : RegIndex) (w : Bool) :
    (s.recordError c a w).msg = s.msg := by
  unfold State.recordError; split <;> simp_all
@[simp] theorem recordError_ct (s : State) (c : Cause) (a : RegIndex) (w : Bool) :
    (s.recordError c a w).ct = s.ct := by
  unfold State.recordError; split <;> simp_all
@[simp] theorem recordError_round (s : State) (c : Cause) (a : RegIndex) (w : Bool) :
    (s.recordError c a w).round = s.round := by
  unfold State.recordError; split <;> simp_all
@[simp] theorem recordError_klen (s : State) (c : Cause) (a : RegIndex) (w : Bool) :
    (s.recordError c a w).klen = s.klen := by
  unfold State.recordError; split <;> simp_all
@[simp] theorem recordError_kcur (s : State) (c : Cause) (a : RegIndex) (w : Bool) :
    (s.recordError c a w).kcur = s.kcur := by
  unfold State.recordError; split <;> simp_all
@[simp] theorem recordError_sbox (s : State) (c : Cause) (a : RegIndex) (w : Bool) :
    (s.recordError c a w).sbox = s.sbox := by
  unfold State.recordError; split <;> simp_all
@[simp] theorem recordError_keys (s : State) (c : Cause) (a : RegIndex) (w : Bool) :
    (s.recordError c a w).keys = s.keys := by
  unfold State.recordError; split <;> simp_all
@[simp] theorem recordError_perm (s : State) (c : Cause) (a : RegIndex) (w : Bool) :
    (s.recordError c a w).perm = s.perm := by
  unfold State.recordError; split <;> simp_all
@[simp] theorem recordError_dbgKey (s : State) (c : Cause) (a : RegIndex) (w : Bool) :
    (s.recordError c a w).dbgKey = s.dbgKey := by
  unfold State.recordError; split <;> simp_all
@[simp] theorem recordError_dbgMix (s : State) (c : Cause) (a : RegIndex) (w : Bool) :
    (s.recordError c a w).dbgMix = s.dbgMix := by
  unfold State.recordError; split <;> simp_all
@[simp] theorem recordError_dbgSub (s : State) (c : Cause) (a : RegIndex) (w : Bool) :
    (s.recordError c a w).dbgSub = s.dbgSub := by
  unfold State.recordError; split <;> simp_all
@[simp] theorem recordError_err (s : State) (c : Cause) (a : RegIndex) (w : Bool) :
    (s.recordError c a w).err = true := by
  unfold State.recordError; split <;> simp_all
@[simp] theorem recordError_errCode (s : State) (c : Cause) (a : RegIndex) (w : Bool) :
    (s.recordError c a w).errCode = if s.err then s.errCode else c.code := by
  unfold State.recordError; split <;> simp_all
@[simp] theorem recordError_errAddr (s : State) (c : Cause) (a : RegIndex) (w : Bool) :
    (s.recordError c a w).errAddr = if s.err then s.errAddr else a := by
  unfold State.recordError; split <;> simp_all
@[simp] theorem recordError_errWr (s : State) (c : Cause) (a : RegIndex) (w : Bool) :
    (s.recordError c a w).errWr = if s.err then s.errWr else w := by
  unfold State.recordError; split <;> simp_all
@[simp] theorem recordError_outstanding (s : State) (c : Cause) (a : RegIndex) (w : Bool) :
    (s.recordError c a w).outstanding = s.outstanding := by
  unfold State.recordError; split <;> simp_all
@[simp] theorem recordError_inbox (s : State) (c : Cause) (a : RegIndex) (w : Bool) :
    (s.recordError c a w).inbox = s.inbox := by
  unfold State.recordError; split <;> simp_all
@[simp] theorem recordError_received (s : State) (c : Cause) (a : RegIndex) (w : Bool) :
    (s.recordError c a w).received = s.received := by
  unfold State.recordError; split <;> simp_all

/-- The record keeps the first error (R213). -/
theorem recordError_of_err {s : State} (h : s.err = true) (c : Cause) (a : RegIndex) (w : Bool) :
    s.recordError c a w = s := by simp [State.recordError, h]

/-- The first rejection is recorded (R213). -/
theorem recordError_of_clear {s : State} (h : s.err = false) (c : Cause) (a : RegIndex) (w : Bool) :
    s.recordError c a w = { s with err := true, errCode := c.code, errAddr := a, errWr := w } := by
  simp [State.recordError, h]

theorem answer_none {s : State} (h : s.outstanding = none) (rest : List PortEvent) :
    answer s rest = { s with inbox := rest } := by simp [answer, h]

theorem answer_some {s : State} {r : Response} (h : s.outstanding = some r) (rest : List PortEvent) :
    answer s rest = { s with outstanding := none, received := s.received ++ [r], inbox := rest } := by
  simp [answer, h]

@[simp] theorem answer_msg (s : State) (rest : List PortEvent) : (answer s rest).msg = s.msg := by
  unfold answer; split <;> simp_all
@[simp] theorem answer_ct (s : State) (rest : List PortEvent) : (answer s rest).ct = s.ct := by
  unfold answer; split <;> simp_all
@[simp] theorem answer_round (s : State) (rest : List PortEvent) : (answer s rest).round = s.round := by
  unfold answer; split <;> simp_all
@[simp] theorem answer_klen (s : State) (rest : List PortEvent) : (answer s rest).klen = s.klen := by
  unfold answer; split <;> simp_all
@[simp] theorem answer_kcur (s : State) (rest : List PortEvent) : (answer s rest).kcur = s.kcur := by
  unfold answer; split <;> simp_all
@[simp] theorem answer_sbox (s : State) (rest : List PortEvent) : (answer s rest).sbox = s.sbox := by
  unfold answer; split <;> simp_all
@[simp] theorem answer_keys (s : State) (rest : List PortEvent) : (answer s rest).keys = s.keys := by
  unfold answer; split <;> simp_all
@[simp] theorem answer_perm (s : State) (rest : List PortEvent) : (answer s rest).perm = s.perm := by
  unfold answer; split <;> simp_all
@[simp] theorem answer_dbgKey (s : State) (rest : List PortEvent) : (answer s rest).dbgKey = s.dbgKey := by
  unfold answer; split <;> simp_all
@[simp] theorem answer_dbgMix (s : State) (rest : List PortEvent) : (answer s rest).dbgMix = s.dbgMix := by
  unfold answer; split <;> simp_all
@[simp] theorem answer_dbgSub (s : State) (rest : List PortEvent) : (answer s rest).dbgSub = s.dbgSub := by
  unfold answer; split <;> simp_all
@[simp] theorem answer_err (s : State) (rest : List PortEvent) : (answer s rest).err = s.err := by
  unfold answer; split <;> simp_all
@[simp] theorem answer_errCode (s : State) (rest : List PortEvent) : (answer s rest).errCode = s.errCode := by
  unfold answer; split <;> simp_all
@[simp] theorem answer_errAddr (s : State) (rest : List PortEvent) : (answer s rest).errAddr = s.errAddr := by
  unfold answer; split <;> simp_all
@[simp] theorem answer_errWr (s : State) (rest : List PortEvent) : (answer s rest).errWr = s.errWr := by
  unfold answer; split <;> simp_all
@[simp] theorem answer_outstanding (s : State) (rest : List PortEvent) : (answer s rest).outstanding = none := by
  unfold answer; split <;> simp_all
@[simp] theorem answer_inbox (s : State) (rest : List PortEvent) : (answer s rest).inbox = rest := by
  unfold answer; split <;> simp_all
@[simp] theorem answer_received (s : State) (rest : List PortEvent) : (answer s rest).received = s.received ++ s.outstanding.toList := by
  unfold answer; split <;> simp_all

end Sys2Proof.Machine
end

