-- ==== Sys2Proof/Laws/Ops.lean ====
section
/-! SUPPORT. Spec lemmas of the shared operations, and the one inversion lemma of `exec`: all that a request can do. -/

namespace Sys2Proof.Machine

theorem klenOperand_eq_some {d : Word} {n : BitVec 5} :
    klenOperand d = some n ↔ 1 ≤ d.toNat ∧ d.toNat ≤ 16 ∧ n = d.extractLsb' 0 5 := by
  unfold klenOperand
  split
  · simp; omega
  · simp only [Option.some.injEq]
    constructor
    · rintro rfl; exact ⟨by omega, by omega, rfl⟩
    · rintro ⟨_, _, rfl⟩; rfl

theorem klenOperand_eq_none {d : Word} : klenOperand d = none ↔ d.toNat = 0 ∨ 16 < d.toNat := by
  unfold klenOperand; split <;> simp_all

/-- A legal length keeps its value in KLEN's 5 bits. -/
theorem klenOperand_toNat {d : Word} {n : BitVec 5} (h : klenOperand d = some n) : n.toNat = d.toNat := by
  obtain ⟨_, h16, rfl⟩ := klenOperand_eq_some.mp h
  simp [BitVec.extractLsb'_toNat]; omega

theorem permOperand_eq_some {d : Word} {v : PermEntry} :
    permOperand d = some v ↔ d.extractLsb' 6 58 = 0#58 ∧ v = d.extractLsb' 0 6 := by
  unfold permOperand; split
  · simp_all
  · simp_all [eq_comm]

/-- Bits [63:6] are 0 exactly for the numbers below 64. -/
theorem permData_high_iff (d : Word) : d.extractLsb' 6 58 = 0#58 ↔ d.toNat < 64 := by
  constructor
  · intro h
    have := congrArg BitVec.toNat h
    have hd := d.isLt
    simp [BitVec.extractLsb'_toNat, Nat.shiftRight_eq_div_pow] at this
    omega
  · intro h
    apply BitVec.eq_of_toNat_eq
    simp [BitVec.extractLsb'_toNat, Nat.shiftRight_eq_div_pow]
    omega

theorem nextSlot_lt {s : State} (h0 : s.klen ≠ 0) : s.nextSlot.toNat < s.klen.toNat := by
  have : s.klen.toNat ≠ 0 := fun e => h0 (BitVec.eq_of_toNat_eq e)
  unfold State.nextSlot; split
  · simp; omega
  · simp_all [BitVec.le_def]

/-- R180, where the sequence lies within the key store: the slot's key is taken and the cursor moves past it. -/
theorem nextKey_eq {s : State} (h0 : s.klen ≠ 0) (h16 : s.klen.toNat ≤ 16) :
    s.nextKey = some (s.keys[s.nextSlot.toNat]'(by have := nextSlot_lt h0; omega), s.nextSlot + 1) := by
  have := nextSlot_lt h0
  rw [State.nextKey, dif_pos]

/-- All that performing `i` from `s` can come to, when it goes on. -/
inductive Effect (i : Instr) (s : State) : State → Prop where
  | read (v : Word) (h : reqWe (encode i) = false) : Effect i s (s.respond false v)
  | rejected (c : Cause) (a : RegIndex) (w : Bool) (ha : a = reqAddr (encode i)) (hw : w = reqWe (encode i))
      (hf : i.wf = true → CauseFits c.code a w) : Effect i s ((s.recordError c a w).respond true 0)
  | msg (d : Word) (hi : i = .wrMsg d) : Effect i s ((s.setMsg d).roundStateReset.respond false 0)
  | klen (d : Word) (n : BitVec 5) (hi : i = .wrKlen d) (hn : klenOperand d = some n) :
      Effect i s ((s.setKlen n).roundStateReset.respond false 0)
  | sbox (d : Word) (hi : i = .wrSbox d) : Effect i s ((s.setSbox d).respond false 0)
  | key (j : KeySlot) (d : Word) (hi : i = .wrKey j d) : Effect i s ((s.setKey j d).respond false 0)
  | perm (p : PermEntry) (d : Word) (v : PermEntry) (hi : i = .wrPerm p d) (hv : permOperand d = some v) :
      Effect i s ((s.setPerm p v).respond false 0)
  | reset (hi : i = .cmdReset) : Effect i s (s.roundStateReset.respond false 0)
  | clrErr (hi : i = .cmdClrErr) : Effect i s (s.clearError.respond false 0)
  | round (hi : i = .cmdRound) (hb : bijective s.perm = true) (k : Word) (u : BitVec 5) (h0 : s.klen ≠ 0)
      (ho : s.round ≠ 0xFFFFFFFF#32) (hk : s.nextKey = some (k, u)) :
      Effect i s ((s.commitRound k (keyMix (if s.round + 1 = 1 then s.msg else s.ct) k)
        (substitute s.sbox (keyMix (if s.round + 1 = 1 then s.msg else s.ct) k))
        (permute s.perm hb (substitute s.sbox (keyMix (if s.round + 1 = 1 then s.msg else s.ct) k)))
        (s.round + 1) u).respond false 0)

/-- What CMD_ROUND can come to (R181). -/
theorem execCmdRound_effect {s t : State} (h : execCmdRound s = .next t) : Effect .cmdRound s t := by
  unfold execCmdRound at h
  split at h
  · cases h; exact .rejected _ _ _ (by simp [encode]) (by simp [encode]) fun _ => by decide
  · split at h
    · split at h
      · cases h; exact .rejected _ _ _ (by simp [encode]) (by simp [encode]) fun _ => by decide
      · split at h
        · cases h
        · cases h; exact .round rfl ‹_› _ _ ‹_› ‹_› ‹_›
    · cases h; exact .rejected _ _ _ (by simp [encode]) (by simp [encode]) fun _ => by decide

theorem not_mapped_of_wf : ∀ a : RegIndex,
    ((0x0C#8 ≤ a ∧ a ≤ 0x0F#8) ∨ (0x20#8 ≤ a ∧ a ≤ 0x3F#8) ∨ 0x80#8 ≤ a) → mapped a = false := by decide +kernel

/-- The inversion lemma of `exec`. -/
theorem exec_effect {i : Instr} {s t : State} (h : exec i s = .next t) : Effect i s t := by
  have hwe : ∀ (a : RegIndex) (d : Word), reqWe (mkRequest false a d) = false := reqWe_mkRequest false
  cases i with
  | cmdRound => exact execCmdRound_effect h
  | wrKlen d =>
    simp only [exec, execWrKlen] at h
    split at h
    · cases h; exact .rejected _ _ _ (by simp [encode]) (by simp [encode]) fun _ => by decide
    · cases h; exact .klen _ _ rfl ‹_›
  | wrPerm p d =>
    simp only [exec, execWrPerm] at h
    split at h
    · cases h
      exact .rejected _ _ _ (by simp [encode]) (by simp [encode]) fun _ =>
        .inr (.inr (.inl ⟨rfl, rfl, permIndex_range p⟩))
    · cases h; exact .perm _ _ _ rfl ‹_›
  | wrMsg d => cases h; exact .msg _ rfl
  | wrSbox d => cases h; exact .sbox _ rfl
  | wrKey j d => cases h; exact .key _ _ rfl
  | cmdReset => cases h; exact .reset rfl
  | cmdClrErr => cases h; exact .clrErr rfl
  | accUnmapped0C0F we a =>
    cases h
    exact .rejected _ _ _ (by simp [encode]) (by simp [encode]) fun hw =>
      .inl ⟨rfl, not_mapped_of_wf a (by simp [Instr.wf] at hw; exact .inl hw)⟩
  | accUnmapped203F we a =>
    cases h
    exact .rejected _ _ _ (by simp [encode]) (by simp [encode]) fun hw =>
      .inl ⟨rfl, not_mapped_of_wf a (by simp [Instr.wf] at hw; exact .inr (.inl hw))⟩
  | accUnmapped80FF we a =>
    cases h
    exact .rejected _ _ _ (by simp [encode]) (by simp [encode]) fun hw =>
      .inl ⟨rfl, not_mapped_of_wf a (by simp [Instr.wf] at hw; exact .inr (.inr hw))⟩
  | cmdIllegal d | wrRoId d | wrRoStatus d | wrRoCt d | wrRoRound d | wrRoKcur d | wrRoDbgKey d | wrRoDbgMix d
  | wrRoDbgSub d =>
    cases h; exact .rejected _ _ _ (by simp [encode]) (by simp [encode]) fun _ => by decide
  | rdId | rdCmd | rdStatus | rdMsg | rdCt | rdRound | rdKlen | rdKcur | rdSbox | rdDbgKey | rdDbgMix | rdDbgSub =>
    cases h; exact .read _ (hwe _ _)
  | rdKey j => cases h; exact .read _ (hwe _ _)
  | rdPerm p => cases h; exact .read _ (hwe _ _)

/-- Performing a request touches neither what the host still offers nor what it has received. -/
theorem exec_port_frame {i : Instr} {s t : State} (h : exec i s = .next t) :
    t.inbox = s.inbox ∧ t.received = s.received := by
  cases exec_effect h <;> simp

/-- Every request that goes on leaves exactly one response on its way (R71 (c)). -/
theorem exec_outstanding {i : Instr} {s t : State} (h : exec i s = .next t) : ∃ r, t.outstanding = some r := by
  cases exec_effect h <;> exact ⟨_, rfl⟩

end Sys2Proof.Machine
end

