-- ==== Sys2Proof/Laws/PerInstr.lean ====
section
/-! SUPPORT. Per instruction: the encoding of a well-formed request fits its row of spec/opcode_table.json, mask and match
copied from the table. -/

namespace Sys2Proof.Laws

/-- The row's match and mask, as the table prints them. -/
def tableRow : Instr → Request × Request
  | .rdId => (0x0000000000000000000#73, 0x1ff0000000000000000#73)
  | .rdCmd => (0x0010000000000000000#73, 0x1ff0000000000000000#73)
  | .rdStatus => (0x0020000000000000000#73, 0x1ff0000000000000000#73)
  | .rdMsg => (0x0030000000000000000#73, 0x1ff0000000000000000#73)
  | .rdCt => (0x0040000000000000000#73, 0x1ff0000000000000000#73)
  | .rdRound => (0x0050000000000000000#73, 0x1ff0000000000000000#73)
  | .rdKlen => (0x0060000000000000000#73, 0x1ff0000000000000000#73)
  | .rdKcur => (0x0070000000000000000#73, 0x1ff0000000000000000#73)
  | .rdSbox => (0x0080000000000000000#73, 0x1ff0000000000000000#73)
  | .rdDbgKey => (0x0090000000000000000#73, 0x1ff0000000000000000#73)
  | .rdDbgMix => (0x00a0000000000000000#73, 0x1ff0000000000000000#73)
  | .rdDbgSub => (0x00b0000000000000000#73, 0x1ff0000000000000000#73)
  | .rdKey _ => (0x0100000000000000000#73, 0x1f00000000000000000#73)
  | .rdPerm _ => (0x0400000000000000000#73, 0x1c00000000000000000#73)
  | .cmdRound => (0x1010000000000000001#73, 0x1ffffffffffffffffff#73)
  | .cmdReset => (0x1010000000000000002#73, 0x1ffffffffffffffffff#73)
  | .cmdClrErr => (0x1010000000000000003#73, 0x1ffffffffffffffffff#73)
  | .cmdIllegal _ => (0x1010000000000000000#73, 0x1ff0000000000000000#73)
  | .wrMsg _ => (0x1030000000000000000#73, 0x1ff0000000000000000#73)
  | .wrKlen _ => (0x1060000000000000000#73, 0x1ff0000000000000000#73)
  | .wrSbox _ => (0x1080000000000000000#73, 0x1ff0000000000000000#73)
  | .wrKey _ _ => (0x1100000000000000000#73, 0x1f00000000000000000#73)
  | .wrPerm _ _ => (0x1400000000000000000#73, 0x1c00000000000000000#73)
  | .wrRoId _ => (0x1000000000000000000#73, 0x1ff0000000000000000#73)
  | .wrRoStatus _ => (0x1020000000000000000#73, 0x1ff0000000000000000#73)
  | .wrRoCt _ => (0x1040000000000000000#73, 0x1ff0000000000000000#73)
  | .wrRoRound _ => (0x1050000000000000000#73, 0x1ff0000000000000000#73)
  | .wrRoKcur _ => (0x1070000000000000000#73, 0x1ff0000000000000000#73)
  | .wrRoDbgKey _ => (0x1090000000000000000#73, 0x1ff0000000000000000#73)
  | .wrRoDbgMix _ => (0x10a0000000000000000#73, 0x1ff0000000000000000#73)
  | .wrRoDbgSub _ => (0x10b0000000000000000#73, 0x1ff0000000000000000#73)
  | .accUnmapped0C0F _ _ => (0x00c0000000000000000#73, 0x0fc0000000000000000#73)
  | .accUnmapped203F _ _ => (0x0200000000000000000#73, 0x0e00000000000000000#73)
  | .accUnmapped80FF _ _ => (0x0800000000000000000#73, 0x0800000000000000000#73)

/-- Masking keeps the fields apart. -/
theorem mkRequest_and (we wm : Bool) (a m : RegIndex) (d n : Word) :
    mkRequest we a d &&& mkRequest wm m n = mkRequest (we && wm) (a &&& m) (d &&& n) := by
  refine BitVec.eq_of_getLsbD_eq fun k hk => ?_
  rw [BitVec.getLsbD_and, mkRequest_getLsbD _ _ _ _ hk, mkRequest_getLsbD _ _ _ _ hk, mkRequest_getLsbD _ _ _ _ hk]
  split
  · exact (BitVec.getLsbD_and ..).symm
  · split
    · exact (BitVec.getLsbD_and ..).symm
    · rfl

/-- A row whose mask leaves WDATA out matches whatever the data. -/
theorem mkRequest_and_head (we wm : Bool) (a m : RegIndex) (d : Word) :
    mkRequest we a d &&& mkRequest wm m 0 = mkRequest (we && wm) (a &&& m) 0 := by
  rw [mkRequest_and]; simp

/-- The encoding of a well-formed request has the row's match bits under the row's mask (R83). -/
def FitsTable.Statement (i : Instr) : Prop := i.wf = true → encode i &&& (tableRow i).2 = (tableRow i).1

namespace FitsTable

theorem rdId : Statement (.rdId) := fun _ => by decide
theorem rdCmd : Statement (.rdCmd) := fun _ => by decide
theorem rdStatus : Statement (.rdStatus) := fun _ => by decide
theorem rdMsg : Statement (.rdMsg) := fun _ => by decide
theorem rdCt : Statement (.rdCt) := fun _ => by decide
theorem rdRound : Statement (.rdRound) := fun _ => by decide
theorem rdKlen : Statement (.rdKlen) := fun _ => by decide
theorem rdKcur : Statement (.rdKcur) := fun _ => by decide
theorem rdSbox : Statement (.rdSbox) := fun _ => by decide
theorem rdDbgKey : Statement (.rdDbgKey) := fun _ => by decide
theorem rdDbgMix : Statement (.rdDbgMix) := fun _ => by decide
theorem rdDbgSub : Statement (.rdDbgSub) := fun _ => by decide
theorem rdKey (j : KeySlot) : Statement (.rdKey j) := fun _ => by revert j; decide +kernel
theorem rdPerm (i : PermEntry) : Statement (.rdPerm i) := fun _ => by revert i; decide +kernel
theorem cmdRound : Statement (.cmdRound) := fun _ => by decide
theorem cmdReset : Statement (.cmdReset) := fun _ => by decide
theorem cmdClrErr : Statement (.cmdClrErr) := fun _ => by decide
theorem cmdIllegal (d : Word) : Statement (.cmdIllegal d) := by
  intro _
  have hm : 0x1ff0000000000000000#73 = mkRequest true 0xFF#8 0 := by decide
  rw [tableRow, hm, encode, mkRequest_and_head]; decide
theorem wrMsg (d : Word) : Statement (.wrMsg d) := by
  intro _
  have hm : 0x1ff0000000000000000#73 = mkRequest true 0xFF#8 0 := by decide
  rw [tableRow, hm, encode, mkRequest_and_head]; decide
theorem wrKlen (d : Word) : Statement (.wrKlen d) := by
  intro _
  have hm : 0x1ff0000000000000000#73 = mkRequest true 0xFF#8 0 := by decide
  rw [tableRow, hm, encode, mkRequest_and_head]; decide
theorem wrSbox (d : Word) : Statement (.wrSbox d) := by
  intro _
  have hm : 0x1ff0000000000000000#73 = mkRequest true 0xFF#8 0 := by decide
  rw [tableRow, hm, encode, mkRequest_and_head]; decide
theorem wrKey (j : KeySlot) (d : Word) : Statement (.wrKey j d) := by
  intro hw; clear hw
  have hm : 0x1f00000000000000000#73 = mkRequest true 0xf0#8 0 := by decide
  have ha : keyIndex j &&& 0xf0#8 = 0x10#8 := by revert j; decide
  rw [tableRow, hm, encode, mkRequest_and_head, ha]; decide
theorem wrPerm (i : PermEntry) (d : Word) : Statement (.wrPerm i d) := by
  intro hw; clear hw
  have hm : 0x1c00000000000000000#73 = mkRequest true 0xc0#8 0 := by decide
  have ha : permIndex i &&& 0xc0#8 = 0x40#8 := by revert i; decide
  rw [tableRow, hm, encode, mkRequest_and_head, ha]; decide
theorem wrRoId (d : Word) : Statement (.wrRoId d) := by
  intro _
  have hm : 0x1ff0000000000000000#73 = mkRequest true 0xFF#8 0 := by decide
  rw [tableRow, hm, encode, mkRequest_and_head]; decide
theorem wrRoStatus (d : Word) : Statement (.wrRoStatus d) := by
  intro _
  have hm : 0x1ff0000000000000000#73 = mkRequest true 0xFF#8 0 := by decide
  rw [tableRow, hm, encode, mkRequest_and_head]; decide
theorem wrRoCt (d : Word) : Statement (.wrRoCt d) := by
  intro _
  have hm : 0x1ff0000000000000000#73 = mkRequest true 0xFF#8 0 := by decide
  rw [tableRow, hm, encode, mkRequest_and_head]; decide
theorem wrRoRound (d : Word) : Statement (.wrRoRound d) := by
  intro _
  have hm : 0x1ff0000000000000000#73 = mkRequest true 0xFF#8 0 := by decide
  rw [tableRow, hm, encode, mkRequest_and_head]; decide
theorem wrRoKcur (d : Word) : Statement (.wrRoKcur d) := by
  intro _
  have hm : 0x1ff0000000000000000#73 = mkRequest true 0xFF#8 0 := by decide
  rw [tableRow, hm, encode, mkRequest_and_head]; decide
theorem wrRoDbgKey (d : Word) : Statement (.wrRoDbgKey d) := by
  intro _
  have hm : 0x1ff0000000000000000#73 = mkRequest true 0xFF#8 0 := by decide
  rw [tableRow, hm, encode, mkRequest_and_head]; decide
theorem wrRoDbgMix (d : Word) : Statement (.wrRoDbgMix d) := by
  intro _
  have hm : 0x1ff0000000000000000#73 = mkRequest true 0xFF#8 0 := by decide
  rw [tableRow, hm, encode, mkRequest_and_head]; decide
theorem wrRoDbgSub (d : Word) : Statement (.wrRoDbgSub d) := by
  intro _
  have hm : 0x1ff0000000000000000#73 = mkRequest true 0xFF#8 0 := by decide
  rw [tableRow, hm, encode, mkRequest_and_head]; decide
theorem accUnmapped0C0F (we : Bool) (a : RegIndex) : Statement (.accUnmapped0C0F we a) := by
  intro h
  have hm : 0x0fc0000000000000000#73 = mkRequest false 0xfc#8 0 := by decide
  have ha : a &&& 0xfc#8 = 0xc#8 := by
    simp only [Instr.wf, Bool.and_eq_true, decide_eq_true_eq] at h
    revert h a; decide +kernel
  rw [tableRow, hm, encode, mkRequest_and_head, ha]; cases we <;> decide
theorem accUnmapped203F (we : Bool) (a : RegIndex) : Statement (.accUnmapped203F we a) := by
  intro h
  have hm : 0x0e00000000000000000#73 = mkRequest false 0xe0#8 0 := by decide
  have ha : a &&& 0xe0#8 = 0x20#8 := by
    simp only [Instr.wf, Bool.and_eq_true, decide_eq_true_eq] at h
    revert h a; decide +kernel
  rw [tableRow, hm, encode, mkRequest_and_head, ha]; cases we <;> decide
theorem accUnmapped80FF (we : Bool) (a : RegIndex) : Statement (.accUnmapped80FF we a) := by
  intro h
  have hm : 0x0800000000000000000#73 = mkRequest false 0x80#8 0 := by decide
  have ha : a &&& 0x80#8 = 0x80#8 := by
    simp only [Instr.wf, decide_eq_true_eq] at h
    revert h a; decide +kernel
  rw [tableRow, hm, encode, mkRequest_and_head, ha]; cases we <;> decide

end FitsTable

end Sys2Proof.Laws
end

