-- ==== Sys2Proof/Laws/Step.lean ====
section
/-! SUPPORT. What one step at the port does. -/

namespace Sys2Proof.Machine

theorem step_nil {s : State} (h : s.inbox = []) : step s = .next (answer s []) := by simp [step, fetch, h]

theorem step_resetEdge {s : State} {rest : List PortEvent} (h : s.inbox = .resetEdge :: rest) :
    step s = .next (hardwareReset s rest) := by simp [step, fetch, h]

theorem step_busy {s : State} {rest : List PortEvent} (h : s.inbox = .busy :: rest) :
    step s = .next { s with inbox := rest } := by simp [step, fetch, h]

theorem step_idle {s : State} {rest : List PortEvent} (h : s.inbox = .idle :: rest) :
    step s = .next (answer s rest) := by simp [step, fetch, h]

theorem step_request_ready {s : State} {q : Request} {rest : List PortEvent} (h : s.inbox = .request q :: rest)
    (ho : s.outstanding = none) : step s = exec (decode q) { s with inbox := rest } := by
  simp [step, fetch, h, State.reqReady, ho]

theorem step_request_held {s : State} {q : Request} {rest : List PortEvent} {r : Response}
    (h : s.inbox = .request q :: rest) (ho : s.outstanding = some r) :
    step s = .next { s with outstanding := none, received := s.received ++ [r] } := by
  simp [step, fetch, h, State.reqReady, ho, answer]

/-- The inversion lemma of `step`: a reset edge, a quiet cycle, a response, or a request performed. -/
theorem step_next_cases {s t : State} (h : step s = .next t) :
    (∃ rest, s.inbox = .resetEdge :: rest ∧ t = hardwareReset s rest) ∨
    (∃ rest, t = { s with inbox := rest }) ∨
    (∃ rest, t = answer s rest) ∨
    (∃ q rest, s.inbox = .request q :: rest ∧ s.outstanding = none ∧
      exec (decode q) { s with inbox := rest } = .next t) := by
  unfold step fetch at h
  rcases hi : s.inbox with _ | ⟨e, rest⟩
  · rw [hi] at h; cases h; exact .inr (.inr (.inl ⟨_, rfl⟩))
  · rw [hi] at h
    cases e with
    | resetEdge => cases h; exact .inl ⟨_, rfl, rfl⟩
    | busy => cases h; exact .inr (.inl ⟨_, rfl⟩)
    | idle => cases h; exact .inr (.inr (.inl ⟨_, rfl⟩))
    | request q =>
      cases ho : s.outstanding with
      | none =>
        simp only [State.reqReady, ho, Option.isNone_none, if_true] at h
        exact .inr (.inr (.inr ⟨q, rest, rfl, rfl, h⟩))
      | some r =>
        simp only [State.reqReady, ho, Option.isNone_some, Bool.false_eq_true, if_false] at h
        cases h; exact .inr (.inr (.inl ⟨_, rfl⟩))

/-- One step and then `k` more. -/
theorem run_succ_of_step {s t : State} (k : Nat) (h : step s = .next t) : core.run (k + 1) s = core.run k t := by
  have e : core.step s = .next t := h
  have := Host.Core.run.eq_2 core s k
  rw [e] at this
  exact this

/-- A request performed at the port, and its response delivered, where the host offers requests only: two steps. -/
theorem run_request {s u : State} {q : Request} {qs : List Request} {r : Response} (k : Nat)
    (ho : s.outstanding = none) (hi : s.inbox = .request q :: qs.map .request)
    (he : exec (decode q) { s with inbox := qs.map .request } = .next u) (hr : u.outstanding = some r) :
    core.run (k + 2) s = core.run k { u with outstanding := none, received := u.received ++ [r] } := by
  have hf : u.inbox = qs.map .request := (exec_port_frame he).1
  rw [run_succ_of_step _ ((step_request_ready hi ho).trans he)]
  cases qs with
  | nil =>
    have hn : u.inbox = [] := hf
    rw [run_succ_of_step _ (step_nil hn), answer_some hr, ← hn]
  | cons q' qs => rw [run_succ_of_step _ (step_request_held hf hr)]

theorem run_zero (s : State) : core.run 0 s = .next s := rfl

end Sys2Proof.Machine
end

