-- ==== Sys2Proof/Tests/Slice0.lean ====
section
/-! SUPPORT. Tests of the model on the vectors of spec/95_test_vectors.md (each named by its id there), the smoke tests of
WellFormed, and for every statement with hypotheses a witness that meets them. -/

namespace Sys2Proof.Tests

open Machine Claims

/-! ## Start states of 95_test_vectors.md section 2 -/

/-- The source's permutation table P. -/
def tableP : PermTable :=
  #v[41, 32, 28, 7, 60, 62, 38, 35, 5, 24, 61, 40, 12, 53, 55, 56, 50, 34, 54, 22, 39, 8, 51, 33, 20, 26, 30, 10, 31, 19, 42,
    16, 47, 48, 13, 9, 63, 6, 4, 45, 29, 36, 15, 0, 46, 11, 21, 58, 2, 57, 3, 37, 1, 17, 27, 18, 25, 52, 14, 44, 43, 49, 23,
    59]

/-- Its inverse, `Pinv` of L1-A. -/
def tablePinv : PermTable :=
  #v[43, 52, 48, 50, 38, 8, 37, 3, 21, 35, 27, 45, 12, 34, 58, 42, 31, 53, 55, 29, 24, 46, 19, 62, 9, 56, 25, 54, 2, 40, 26,
    28, 1, 23, 17, 7, 41, 51, 6, 20, 11, 0, 30, 60, 59, 39, 44, 32, 33, 61, 16, 22, 57, 13, 18, 14, 15, 49, 47, 63, 4, 10, 5,
    36]

/-- S0 -/
def s0 : State := State.reset
/-- SA -/
def sA : State :=
  { s0 with perm := tableP, sbox := 0xc56b90ad3ef84712#64, keys := s0.keys.set 0 0x23a68d38d22f3af5#64, klen := 1,
            msg := 0x99776bb932a5dd75#64 }
/-- SA1 -/
def sA1 : State :=
  { sA with ct := 0xc273f68217da54af#64, round := 1, kcur := 1, dbgKey := 0x23a68d38d22f3af5#64,
            dbgMix := 0xbad1e681e08ae780#64, dbgSub := 0x8f751a351c3f1d3c#64 }
/-- SK3 -/
def sK3 : State :=
  { s0 with keys := ((s0.keys.set 0 0x1111111111111111#64).set 1 0x2222222222222222#64).set 2 0x3333333333333333#64,
            klen := 3, msg := 0x0123456789abcdef#64, ct := 0x0123456789abcdef#64, round := 3, kcur := 3,
            dbgKey := 0x3333333333333333#64, dbgMix := 0x0123456789abcdef#64, dbgSub := 0x0123456789abcdef#64 }
/-- SE -/
def sE : State := { s0 with err := true, errCode := 6, errAddr := 1, errWr := true }
/-- SPn -/
def sPn : State := { s0 with perm := s0.perm.set 0 1, klen := 1 }
/-- SV -/
def sV : State := { sA1 with round := 0xFFFFFFFF#32 }
/-- A state with KLEN above the key store's size: no run reaches it. -/
def sWide : State := { s0 with klen := 20, kcur := 17, round := 1 }

/-- The state after one step that takes the request word `w`. -/
def served (s : State) (w : Nat) : Option State :=
  match step (s.withFetchWord 80 w) with
  | .next t => some t
  | _ => none

/-- The response to the request word `w`. -/
def response (s : State) (w : Nat) : Option Response := (served s w).bind (·.outstanding)

/-- STATUS as read after the request word `w`. -/
def statusAfter (s : State) (w : Nat) : Option Word := (served s w).map (·.statusWord)

/-- CT, ROUND, KCUR after the request word `w`. -/
def roundStateAfter (s : State) (w : Nat) : Option (Word × Nat × Nat) :=
  (served s w).map fun t => (t.ct, t.round.toNat, t.kcur.toNat)

/-! ## WellFormed: an ill-formed term for each check -/

theorem test_wf_refuses_legal_commands :
    (Instr.cmdIllegal 1).wf = false ∧ (Instr.cmdIllegal 2).wf = false ∧ (Instr.cmdIllegal 3).wf = false := by decide
theorem test_wf_refuses_index_outside_0C_0F :
    (Instr.accUnmapped0C0F true 0x0B#8).wf = false ∧ (Instr.accUnmapped0C0F true 0x10#8).wf = false := by decide
theorem test_wf_refuses_index_outside_20_3F :
    (Instr.accUnmapped203F false 0x1F#8).wf = false ∧ (Instr.accUnmapped203F false 0x40#8).wf = false := by decide
theorem test_wf_refuses_index_below_80 : (Instr.accUnmapped80FF true 0x7F#8).wf = false := by decide
theorem test_wf_accepts_the_edges :
    (Instr.cmdIllegal 0).wf = true ∧ (Instr.accUnmapped0C0F true 0x0F#8).wf = true ∧
    (Instr.accUnmapped203F true 0x3F#8).wf = true ∧ (Instr.accUnmapped80FF true 0x80#8).wf = true := by decide

/-! ## Decoding: each constructor from a word written out from R72 and R83 -/

theorem test_decode_fixed_reads :
    decode 0x0000000000000000000#73 = .rdId ∧ decode 0x0010000000000000000#73 = .rdCmd ∧
    decode 0x002ffffffffffffffff#73 = .rdStatus ∧ decode 0x0030000000000000000#73 = .rdMsg ∧
    decode 0x0040000000000000000#73 = .rdCt ∧ decode 0x0050000000000000000#73 = .rdRound ∧
    decode 0x0060000000000000000#73 = .rdKlen ∧ decode 0x0070000000000000000#73 = .rdKcur ∧
    decode 0x0080000000000000000#73 = .rdSbox ∧ decode 0x0090000000000000000#73 = .rdDbgKey ∧
    decode 0x00a0000000000000000#73 = .rdDbgMix ∧ decode 0x00b0000000000000000#73 = .rdDbgSub := by decide
theorem test_decode_indexed_reads :
    decode 0x0150000000000000000#73 = .rdKey 5 ∧ decode 0x01f0000000000000000#73 = .rdKey 15 ∧
    decode 0x06a0000000000000000#73 = .rdPerm 42 ∧ decode 0x0400000000000000000#73 = .rdPerm 0 := by decide
theorem test_decode_commands :
    decode 0x1010000000000000001#73 = .cmdRound ∧ decode 0x1010000000000000002#73 = .cmdReset ∧
    decode 0x1010000000000000003#73 = .cmdClrErr ∧ decode 0x1010000000000000000#73 = .cmdIllegal 0 ∧
    decode 0x1010100000000000001#73 = .cmdIllegal 0x0100000000000001#64 := by decide
theorem test_decode_writes :
    decode 0x103deadbeefcafef00d#73 = .wrMsg 0xdeadbeefcafef00d#64 ∧ decode 0x1060000000000000011#73 = .wrKlen 17 ∧
    decode 0x108fedcba9876543210#73 = .wrSbox 0xfedcba9876543210#64 ∧
    decode 0x11fffffffffffffffff#73 = .wrKey 15 0xffffffffffffffff#64 ∧
    decode 0x17f0000000000000040#73 = .wrPerm 63 64 := by decide
theorem test_decode_read_only_writes :
    decode 0x1000000000000000000#73 = .wrRoId 0 ∧ decode 0x1020000000000000000#73 = .wrRoStatus 0 ∧
    decode 0x1040000000000000005#73 = .wrRoCt 5 ∧ decode 0x1050000000000000001#73 = .wrRoRound 1 ∧
    decode 0x1070000000000000000#73 = .wrRoKcur 0 ∧ decode 0x1090000000000000000#73 = .wrRoDbgKey 0 ∧
    decode 0x10a0000000000000000#73 = .wrRoDbgMix 0 ∧ decode 0x10b0000000000000000#73 = .wrRoDbgSub 0 := by decide
theorem test_decode_unmapped :
    decode 0x00d0000000000000000#73 = .accUnmapped0C0F false 0x0D#8 ∧
    decode 0x10c0000000000000101#73 = .accUnmapped0C0F true 0x0C#8 ∧
    decode 0x1200000000000000000#73 = .accUnmapped203F true 0x20#8 ∧
    decode 0x03f0000000000000000#73 = .accUnmapped203F false 0x3F#8 ∧
    decode 0x0800000000000000000#73 = .accUnmapped80FF false 0x80#8 ∧
    decode 0x1ff0000000000000001#73 = .accUnmapped80FF true 0xFF#8 := by decide
theorem test_decode_refuses_74_bits : decodeTableWord 80 0x2000000000000000000 = none := by decide
/-- The example words of R72. -/
theorem test_encode_matches_R72 :
    mkRequest true 0x01#8 0x1#64 = 0x1010000000000000001#73 ∧ mkRequest false 0x04#8 0 = 0x0040000000000000000#73 := by
  decide

/-! ## Reads (L2-A) -/

theorem test_reads_after_reset :  -- A1 to A9
    response s0 0x0000000000000000000 = some ⟨false, 0x53504e4554010000#64⟩ ∧
    response s0 0x0010000000000000000 = some ⟨false, 0⟩ ∧ response s0 0x0020000000000000000 = some ⟨false, 2⟩ ∧
    response s0 0x0080000000000000000 = some ⟨false, 0x0123456789abcdef#64⟩ ∧
    response s0 0x0060000000000000000 = some ⟨false, 0⟩ := by decide +kernel
theorem test_reads_after_scenario_A :  -- A17 to A23, and R134's example
    response sA1 0x0020000000000000000 = some ⟨false, 6⟩ ∧
    response sA1 0x0030000000000000000 = some ⟨false, 0x99776bb932a5dd75#64⟩ ∧
    response sA1 0x0040000000000000000 = some ⟨false, 0xc273f68217da54af#64⟩ ∧
    response sA1 0x0050000000000000000 = some ⟨false, 1⟩ ∧ response sA1 0x0070000000000000000 = some ⟨false, 1⟩ ∧
    response sA1 0x0090000000000000000 = some ⟨false, 0x23a68d38d22f3af5#64⟩ ∧
    response sA1 0x00a0000000000000000 = some ⟨false, 0xbad1e681e08ae780#64⟩ ∧
    response sA1 0x00b0000000000000000 = some ⟨false, 0x8f751a351c3f1d3c#64⟩ := by decide +kernel
theorem test_indexed_reads :  -- A13, A16, A24, A25
    response s0 0x0100000000000000000 = some ⟨false, 0⟩ ∧ response s0 0x07f0000000000000000 = some ⟨false, 0x3f#64⟩ ∧
    response sA1 0x0400000000000000000 = some ⟨false, 0x29#64⟩ ∧
    response sA1 0x07f0000000000000000 = some ⟨false, 0x3b#64⟩ := by decide +kernel
theorem test_status_reads :  -- A26, A27
    response sE 0x0020000000000000000 = some ⟨false, 0x1010603#64⟩ ∧
    response sPn 0x0020000000000000000 = some ⟨false, 0x4#64⟩ := by decide +kernel

/-! ## Writes (L2-B) -/

theorem test_write_msg :  -- B1, B2
    (served s0 0x103deadbeefcafef00d).map (·.msg) = some 0xdeadbeefcafef00d#64 ∧
    roundStateAfter sK3 0x1030123456789abcdef = some (0, 0, 0) := by decide +kernel
theorem test_write_klen :  -- B3, B5
    roundStateAfter sK3 0x1060000000000000003 = some (0, 0, 0) ∧
    (served s0 0x1060000000000000010).map (·.klen) = some 0x10#5 ∧
    statusAfter s0 0x1060000000000000010 = some 6 := by decide +kernel
theorem test_write_klen_rejected :  -- X9, X10
    statusAfter s0 0x1060000000000000000 = some 0x1060403#64 ∧
    statusAfter sK3 0x1060000000000000011 = some 0x1060407#64 ∧
    response sK3 0x1060000000000000011 = some ⟨true, 0⟩ := by decide +kernel
theorem test_write_sbox :  -- B6, B7
    (served s0 0x1080000000000000000).map (·.sbox) = some 0 ∧
    roundStateAfter sK3 0x108fedcba9876543210 = some (0x0123456789abcdef#64, 3, 3) := by decide +kernel
theorem test_write_key :  -- B9, B10
    (served sK3 0x1110000000000abcdef).map (fun t => (t.keys[0], t.keys[1], t.keys[2])) =
      some (0x1111111111111111#64, 0xabcdef#64, 0x3333333333333333#64) ∧
    (served s0 0x11f0000000000000005).map (fun t => t.keys[15]) = some 5 := by decide +kernel
theorem test_write_perm :  -- B11, B12
    (served s0 0x140000000000000003f).map (fun t => (t.perm[0], t.perm[1])) = some (63, 1) ∧
    statusAfter s0 0x140000000000000003f = some 0 ∧
    (served s0 0x17f0000000000000000).map (fun t => t.perm[63]) = some 0 := by decide +kernel
theorem test_write_perm_rejected :  -- X11, X12
    statusAfter s0 0x1400000000000000040 = some 0x1400303#64 ∧
    statusAfter s0 0x17fffffffffffffffc0 = some 0x17f0303#64 := by decide +kernel

/-! ## Datapath (L2-D) -/

/-- `permute` where the check accepts the table. -/
def permuted (t : PermTable) (x : Word) : Option Word := if h : bijective t = true then some (permute t h x) else none

theorem test_permute :  -- D1.3, D1.5, D1.16
    permuted tableP 0x8000000000000000#64 = some 0x0000000000400000#64 ∧
    permuted tableP 0x0123456789abcdef#64 = some 0x6083f566703749f5#64 ∧
    permuted tablePinv 0x6083f566703749f5#64 = some 0x0123456789abcdef#64 := by decide +kernel
theorem test_substitute :  -- D2.4, D2.5, D2.8, D2.11
    substitute 0xc56b90ad3ef84712#64 0xfedcba9876543210#64 = 0x21748fe3da09b65c#64 ∧
    substitute 0xc56b90ad3ef84712#64 0xbad1e681e08ae780#64 = 0x8f751a351c3f1d3c#64 ∧
    substitute 0xfedcba9876543210#64 0x0123456789abcdef#64 = 0xfedcba9876543210#64 ∧
    substitute 0x1111111111111111#64 0x0123456789abcdef#64 = 0x1111111111111111#64 := by decide +kernel
theorem test_bijective :  -- R100's examples
    bijective tableP = true ∧ bijective identityPerm = true ∧ bijective (identityPerm.set 0 1) = false := by
  decide +kernel

/-! ## Commands (L2-C) and rejections (L2-X) -/

theorem test_round_scenario_A :  -- C1
    (served sA 0x1010000000000000001).map (fun t => (t.ct, t.round, t.kcur, t.dbgKey, t.dbgMix, t.dbgSub)) =
      some (0xc273f68217da54af#64, 1, 1, 0x23a68d38d22f3af5#64, 0xbad1e681e08ae780#64, 0x8f751a351c3f1d3c#64) := by
  decide +kernel
theorem test_round_wraps_cursor :  -- C2, C4
    roundStateAfter sA1 0x1010000000000000001 = some (0x3101bb8131b0e016#64, 2, 1) ∧
    roundStateAfter sK3 0x1010000000000000001 = some (0x1032547698badcfe#64, 4, 1) := by decide +kernel
theorem test_round_rejections :  -- X1, X2, X3
    statusAfter s0 0x1010000000000000001 = some 0x1010603#64 ∧
    statusAfter sPn 0x1010000000000000001 = some 0x1010705#64 ∧
    statusAfter sV 0x1010000000000000001 = some 0x1010807#64 := by decide +kernel
theorem test_round_rejection_order :  -- X30, X31, X32
    statusAfter sPn 0x1010000000000000101 = some 0x1010505#64 ∧
    statusAfter { sPn with klen := 0 } 0x1010000000000000001 = some 0x1010601#64 ∧
    statusAfter { sV with perm := sV.perm.set 0 1 } 0x1010000000000000001 = some 0x1010705#64 := by decide +kernel
theorem test_reset_command :  -- C5, C8
    roundStateAfter sK3 0x1010000000000000002 = some (0, 0, 0) ∧
    statusAfter sE 0x1010000000000000002 = some 0x1010603#64 := by decide +kernel
theorem test_clr_err_command : statusAfter sE 0x1010000000000000003 = some 2 := by decide +kernel  -- C6
theorem test_illegal_command :  -- X4, X7, X8
    statusAfter s0 0x1010000000000000000 = some 0x1010503#64 ∧
    statusAfter s0 0x1010000000000000101 = some 0x1010503#64 ∧
    statusAfter s0 0x1018000000000000001 = some 0x1010503#64 := by decide +kernel
theorem test_read_only_writes :  -- X13 to X20
    statusAfter s0 0x1000000000000000000 = some 0x1000203#64 ∧ statusAfter s0 0x1020000000000000000 = some 0x1020203#64 ∧
    statusAfter sA1 0x1040000000000000000 = some 0x1040207#64 ∧ statusAfter s0 0x1050000000000000001 = some 0x1050203#64 ∧
    statusAfter s0 0x1070000000000000000 = some 0x1070203#64 ∧ statusAfter s0 0x1090000000000000000 = some 0x1090203#64 ∧
    statusAfter s0 0x10a0000000000000000 = some 0x10a0203#64 ∧
    statusAfter s0 0x10b0000000000000000 = some 0x10b0203#64 := by decide +kernel
theorem test_unmapped :  -- X21, X23, X26, X29
    statusAfter s0 0x00c0000000000000000 = some 0xc0103#64 ∧ statusAfter s0 0x1200000000000000000 = some 0x1200103#64 ∧
    statusAfter s0 0x0ff0000000000000000 = some 0xff0103#64 ∧
    statusAfter s0 0x10c0000000000000101 = some 0x10c0103#64 := by decide +kernel
theorem test_first_error_is_kept :  -- X27, X28
    statusAfter sE 0x1060000000000000000 = some 0x1010603#64 ∧ statusAfter sE 0x0300000000000000000 = some 0x1010603#64 := by
  decide +kernel

/-! ## The port -/

/-- L2-R R8: a reset edge while a request is outstanding gives S0 and no response. -/
theorem test_reset_edge :
    step { sE with outstanding := some ⟨false, 5⟩, inbox := [.resetEdge, .idle] } = .next { s0 with inbox := [.idle] } := rfl
theorem test_held_request :
    step { s0 with outstanding := some ⟨true, 0⟩, inbox := [.request 0] } =
      .next { s0 with inbox := [.request 0], received := [⟨true, 0⟩] } := rfl

/-! ## The assembler (R81, R82; lines of P1 and P4) -/

theorem test_line_words :
    (Line.wr (.perm 0) 41).request = 0x1400000000000000029#73 ∧ (Line.rd .status).request = 0x0020000000000000000#73 ∧
    (Line.wr (.key 1) 0xb72789b859f4c497#64).request = 0x111b72789b859f4c497#73 ∧
    (Line.rd (.raw 0x0C#8)).request = 0x00c0000000000000000#73 := by decide
theorem test_set_sbox_word :
    rulesetWord #v[0xc, 5, 6, 0xb, 9, 0, 0xa, 0xd, 3, 0xe, 0xf, 8, 4, 7, 1, 2] = 0xc56b90ad3ef84712#64 := by decide
theorem test_set_keys :
    (Pseudo.setKeys [7, 9]).expand = some [.wr (.key 0) 7, .wr (.key 1) 9, .wr .klen 2] ∧
    (Pseudo.setKeys []).expand = none := by decide
theorem test_read_line :
    readLine "RD @0x0C  ; x => err".toList = some (.line (.rd (.raw 0x0C#8)), none) ∧
    readLine "WR KEY[15], 0x5 => ok".toList = some (.line (.wr (.key 15) 5), some .ok) ∧
    readLine "RD CT => ok 0xdead".toList = some (.line (.rd .ct), some (.okValue 0xdead#64)) ∧
    readLine "WR PERM[64], 1".toList = none := by decide +kernel

/-! ## Witnesses: concrete inputs that meet the hypotheses of each statement -/

/-- A state in which a ROUND request stands at the port. -/
def atPort (s : State) (es : List PortEvent) : State := { s with inbox := es }

theorem witness_ResetEdgeAbandonsRequestAndRestoresReset :
    { sE with outstanding := some ⟨false, 5⟩, inbox := [.resetEdge, .idle] }.inbox = .resetEdge :: [.idle] := rfl
theorem witness_StepPerformsDecodedRequest :
    (atPort sA [.request 0x1010000000000000001#73]).inbox = .request 0x1010000000000000001#73 :: [] ∧
    (atPort sA [.request 0x1010000000000000001#73]).outstanding = none := ⟨rfl, rfl⟩
theorem witness_OutstandingRequestHoldsTheNextOne :
    let s : State := { s0 with outstanding := some ⟨false, 7⟩ }
    s.outstanding = some ⟨false, 7⟩ ∧ (atPort s [.request 0]).inbox = .request 0 :: [] ∧
    (atPort s [.idle]).inbox = .idle :: [] ∧ (atPort s []).inbox = [] ∧ (atPort s [.busy]).inbox = .busy :: [] :=
  ⟨rfl, rfl, rfl, rfl, rfl⟩
theorem witness_QuietEventsChangeNothingWhenNoneOutstanding :
    s0.outstanding = none ∧ s0.inbox = [] ∧ (atPort s0 [.idle]).inbox = .idle :: [] ∧
    (atPort s0 [.busy]).inbox = .busy :: [] := ⟨rfl, rfl, rfl, rfl⟩
theorem witness_TransferredRequestIsAnsweredOnce :
    let s := atPort sA [.request 0x1010000000000000001#73, .busy, .busy, .idle]
    Inv s ∧ s.outstanding = none ∧
    s.inbox = .request 0x1010000000000000001#73 :: (List.replicate 2 .busy ++ [.idle]) ∧
    [PortEvent.idle].head? ≠ some .busy ∧ [PortEvent.idle].head? ≠ some .resetEdge := by decide +kernel
theorem witness_MappedReadHasNoSideEffect :
    mapped 0x00#8 = true ∧ mapped 0x0B#8 = true ∧ mapped 0x10#8 = true ∧ mapped 0x1F#8 = true ∧ mapped 0x40#8 = true ∧
    mapped 0x7F#8 = true := by decide
theorem witness_KlenWriteCommitsLegalLengthOnly :
    (1 ≤ (1#64).toNat ∧ (1#64).toNat ≤ 16) ∧ (1 ≤ (16#64).toNat ∧ (16#64).toNat ≤ 16) ∧ (0#64).toNat = 0 ∧
    16 < (17#64).toNat := by decide
theorem witness_PermWriteChangesItsEntryOnly :
    (63#64).extractLsb' 6 58 = 0#58 ∧ (64#64).extractLsb' 6 58 ≠ 0#58 := by decide
theorem witness_RejectedWith : s0.err = false ∧ sE.err = true := by decide
theorem witness_UnmappedAccessesAreRejected :
    mapped 0x0C#8 = false ∧ mapped 0x0F#8 = false ∧ mapped 0x20#8 = false ∧ mapped 0x3F#8 = false ∧
    mapped 0x80#8 = false ∧ mapped 0xFF#8 = false := by decide
theorem witness_IllegalCommandWordsAreRejected :
    (0x101#64).extractLsb' 8 56 ≠ 0#56 ∧ (0#64).extractLsb' 8 56 = 0#56 ∧
    ((0#64).extractLsb' 0 8 ≠ 1#8 ∧ (0#64).extractLsb' 0 8 ≠ 2#8 ∧ (0#64).extractLsb' 0 8 ≠ 3#8) ∧
    ((4#64).extractLsb' 0 8 ≠ 1#8 ∧ (4#64).extractLsb' 0 8 ≠ 2#8 ∧ (4#64).extractLsb' 0 8 ≠ 3#8) := by decide
theorem witness_RejectionIsPrecise :
    ∃ t, exec .cmdRound s0 = .next t ∧ t.outstanding = some ⟨true, 0⟩ := ⟨_, rfl, rfl⟩
theorem witness_ErrorRecordKeepsFirstRejection :
    (∃ t, exec (.wrRoId 0) sE = .next t ∧ sE.err = true ∧ t.outstanding = rejectedRsp) ∧
    (∃ t, exec (.wrRoId 0) s0 = .next t ∧ s0.err = false ∧ t.err = true) := ⟨⟨_, rfl, rfl, rfl⟩, ⟨_, rfl, rfl, rfl⟩⟩
theorem witness_FirstFailingCheckGivesTheCause :
    s0.klen.toNat ≤ 16 ∧ firstFailure s0 0x00c0000000000000000#73 = some 1 ∧
    firstFailure s0 0x1000000000000000000#73 = some 2 ∧ firstFailure s0 0x1400000000000000040#73 = some 3 ∧
    firstFailure s0 0x1060000000000000011#73 = some 4 ∧ firstFailure s0 0x1010000000000000000#73 = some 5 ∧
    firstFailure s0 0x1010000000000000001#73 = some 6 ∧ firstFailure sPn 0x1010000000000000001#73 = some 7 ∧
    firstFailure sV 0x1010000000000000001#73 = some 8 ∧ firstFailure sA 0x1010000000000000001#73 = none := by
  decide +kernel
theorem tableP_distinct : DistinctEntries tableP := by unfold DistinctEntries; decide +kernel
theorem sPn_not_distinct : ¬ DistinctEntries sPn.perm := by
  intro h
  have : (0 : Fin 64) = 1 := h 0 1 (by decide +kernel)
  exact absurd this (by decide)
theorem witness_RoundChecksThenComputes :
    s0.klen = 0 ∧ (sPn.klen ≠ 0 ∧ ¬ DistinctEntries sPn.perm) ∧
    (sV.klen ≠ 0 ∧ DistinctEntries sV.perm ∧ sV.round = 0xFFFFFFFF#32) ∧
    (bijective sA.perm = true ∧ sA.klen ≠ 0 ∧ sA.round ≠ 0xFFFFFFFF#32 ∧
      sA.keys[slotOf sA]? = some 0x23a68d38d22f3af5#64 ∧ 0xbad1e681e08ae780#64 = inputOf sA ^^^ 0x23a68d38d22f3af5#64 ∧
      0x8f751a351c3f1d3c#64 = substitute sA.sbox 0xbad1e681e08ae780#64) :=
  ⟨by decide, ⟨by decide, sPn_not_distinct⟩, ⟨by decide, tableP_distinct, by decide⟩, by decide +kernel⟩
theorem witness_RoundStopsWhereNoKeySlotIs :
    sWide.klen ≠ 0 ∧ DistinctEntries sWide.perm ∧ sWide.round ≠ 0xFFFFFFFF#32 ∧ 16 ≤ slotOf sWide := by
  refine ⟨by decide, ?_, by decide, by decide⟩
  unfold DistinctEntries; decide +kernel
theorem witness_RoundCounterNeverWraps :
    (∃ t, exec .cmdRound sV = .next t) ∧ (∃ t, exec .cmdRound sA = .next t) := by
  refine ⟨⟨_, rfl⟩, ?_⟩
  have h : (served sA 0x1010000000000000001).isSome = true := by decide +kernel
  cases he : exec .cmdRound sA with
  | next t => exact ⟨t, rfl⟩
  | fault f =>
    have hf : (match exec .cmdRound sA with | .next _ => true | _ => false) = true := by decide +kernel
    rw [he] at hf; cases hf
  | refused r =>
    have hf : (match exec .cmdRound sA with | .next _ => true | _ => false) = true := by decide +kernel
    rw [he] at hf; cases hf
theorem witness_PermuteScattersEverySourceBit : bijective tableP = true ∧ bijective identityPerm = true := by decide +kernel
theorem witness_PermutationUnitLaws :
    bijective tableP = true ∧ bijective tablePinv = true ∧
    ∀ i : Fin 64, tablePinv[(tableP[i]).toNat]? = some (BitVec.ofNat 6 i.val) := by decide +kernel
theorem witness_SubstituteMapsEveryLane : ∀ n < 16, (0x1111111111111111#64).extractLsb' (60 - 4 * n) 4 = 1#4 := by decide
theorem witness_RoundFunctionWithIdentityTablesIsXor : bijective identityPerm = true ∧ bijective tableP = true := by
  decide +kernel
theorem witness_DecodeOfEncodeIsTheInstruction :
    (Instr.cmdIllegal 0x101#64).wf = true ∧ (Instr.accUnmapped80FF true 0xFF#8).wf = true ∧ (Instr.rdKey 15).wf = true := by
  decide
theorem witness_StepKeepsInvariant :
    let s := atPort sA [.request 0x0020000000000000000#73]
    Inv s ∧ ∃ t, step s = .next t := ⟨by decide +kernel, ⟨_, rfl⟩⟩
theorem witness_StepNeverStops : Inv sA1 := by decide +kernel
/-- One, two and the greatest number of rounds that R183 lets a session have. -/
theorem witness_SessionCiphertextIsIteratedRoundFunction :
    ∀ n ∈ [1, 2, 2 ^ 32 - 1], let s := atPort sA (List.replicate n (.request 0x1010000000000000001#73))
    bijective s.perm = true ∧ s.outstanding = none ∧ s.klen ≠ 0 ∧ s.klen.toNat ≤ 16 ∧ s.round = 0 ∧ s.kcur = 0 ∧
    1 ≤ n ∧ n < 2 ^ 32 ∧ s.inbox = List.replicate n (.request 0x1010000000000000001#73) := by
  intro n hn
  have hr : 1 ≤ n ∧ n < 2 ^ 32 := by simp at hn; omega
  exact ⟨(by decide +kernel : bijective tableP = true), rfl, (by decide : sA.klen ≠ 0),
    (by decide : sA.klen.toNat ≤ 16), rfl, rfl, hr.1, hr.2, rfl⟩
/-- A state after one round, with CT = X_1, before its second round and before a read. -/
theorem witness_SessionKeepsCtTheCipherWord :
    Inv sA1 ∧ CtIsCipherWord sA1 ∧ sA1.round ≠ 0 ∧
    (let s := atPort sA1 [.request 0x1010000000000000001#73]
     Inv s ∧ ¬ TableWriteTransfers s ∧ ∃ t, step s = .next t) ∧
    ¬ TableWriteTransfers (atPort sA1 [.idle]) := by
  have hr : decode 0x1010000000000000001#73 = .cmdRound := by decide
  refine ⟨by decide +kernel, fun hb _ => ?_, by decide, ⟨by decide +kernel, ?_, ?_⟩, ?_⟩
  · show sA1.ct = roundF tableP hb sA1.sbox sA1.msg 0x23a68d38d22f3af5#64
    have e : ∀ h : bijective tableP = true, sA1.ct = roundF tableP h sA1.sbox sA1.msg 0x23a68d38d22f3af5#64 := by
      decide +kernel
    exact e hb
  · rintro ⟨-, q, rest, hi, h⟩
    cases hi
    simp [hr] at h
  · exact ⟨_, rfl⟩
  · rintro ⟨-, q, rest, hi, -⟩
    cases hi
theorem witness_BootSequenceBuildsFreshEngine :
    ∃ ls, (Pseudo.newEngine tableP #v[0xc, 5, 6, 0xb, 9, 0, 0xa, 0xd, 3, 0xe, 0xf, 8, 4, 7, 1, 2] 1 [5]).expand = some ls ∧
      (atPort s0 (linesEvents ls)).outstanding = none ∧ (atPort s0 (linesEvents ls)).inbox = linesEvents ls :=
  ⟨_, rfl, rfl, rfl⟩
theorem witness_OnlyThreeRequestsResetRoundState :
    (∃ t, exec (.wrKlen 16) sK3 = .next t) ∧ 1 ≤ (16#64).toNat ∧ (16#64).toNat ≤ 16 ∧ Instr.wrKlen 16 ≠ .cmdRound ∧
    (∃ t, exec (.wrKlen 17) sK3 = .next t) ∧ (∃ t, exec (.wrSbox 0) sK3 = .next t) :=
  ⟨⟨_, rfl⟩, by decide, by decide, by decide, ⟨_, rfl⟩, ⟨_, rfl⟩⟩
theorem witness_EachRegisterHasOneWriter : ∃ t, exec (.wrMsg 5) s0 = .next t ∧ t.msg ≠ s0.msg := ⟨_, rfl, by decide⟩
theorem witness_RepeatedRequestChangesNothingMore :
    (∃ t, exec (.wrKey 1 5) s0 = .next t ∧ Instr.wrKey 1 5 ≠ .cmdRound) ∧
    (∃ t, exec .cmdRound s0 = .next t ∧ t.outstanding = rejectedRsp) := ⟨⟨_, rfl, by decide⟩, ⟨_, rfl, rfl⟩⟩
theorem witness_DebugRegistersInfluenceNothingElse :
    SameButDebug sA { sA with dbgKey := 5 } ∧ (∃ t, exec .rdDbgKey sA = .next t) ∧ ReadsDebug .rdDbgKey ∧
    (∃ t, exec .rdCt sA = .next t) ∧ ¬ ReadsDebug .rdCt :=
  ⟨rfl, ⟨_, rfl⟩, .inl rfl, ⟨_, rfl⟩, by simp [ReadsDebug]⟩

end Sys2Proof.Tests
end

/-! Proofs of the statements of the family 10_state.md: reset, the session invariants, what each request can change. -/

namespace Sys2Proof.Machine

open Claims

/-! ## The reset state -/

theorem identityPerm_toNat (i : Fin 64) : (identityPerm[i]).toNat = i.val := by
  simp [identityPerm]

theorem bijective_identityPerm : bijective identityPerm = true := by
  refine (bijective_iff_injective identityPerm).mpr fun i j h => Fin.ext ?_
  rw [← identityPerm_toNat i, h, identityPerm_toNat j]

/-- STATUS of R38: PVALID alone is set. -/
theorem statusWord_reset : State.reset.statusWord = 0x0000000000000002#64 := by
  have hp : State.reset.pvalid = true := bijective_identityPerm
  rw [State.statusWord, hp]
  decide

/-- Settles O1, element by element. -/
theorem resetStateHoldsSpecValues : Obligations.ResetStateHoldsSpecValues :=
  ⟨rfl, rfl, rfl, rfl, rfl, fun j => by simp [State.reset], rfl, identityPerm_toNat,
    rfl, rfl, rfl, rfl, rfl, rfl, rfl, rfl, statusWord_reset, rfl⟩

/-! ## The session invariants of R37 -/

/-- R37 (f) holds by the type of an entry, so R37 is about KLEN, KCUR, ROUND and CT only. -/
theorem sessionOk_of_eq {s t : State} (hs : SessionOk s) (hklen : t.klen = s.klen) (hkcur : t.kcur = s.kcur)
    (hround : t.round = s.round) (hct : t.ct = s.ct) : SessionOk t := by
  obtain ⟨ha, hb, hc, hd, he, -⟩ := hs
  rw [SessionOk, hklen, hkcur, hround, hct]
  exact ⟨ha, hb, hc, hd, he, fun v _ => v.isLt⟩

theorem sessionOk_respond {s : State} (hs : SessionOk s) (e : Bool) (d : Word) : SessionOk (s.respond e d) := hs

/-- A round-state reset gives a fresh session, which R37 allows under every legal KLEN. -/
theorem sessionOk_of_fresh {s : State} (hklen : s.klen.toNat ≤ 16) (hkcur : s.kcur = 0) (hround : s.round = 0)
    (hct : s.ct = 0) : SessionOk s :=
  ⟨hklen, by simp [hkcur], by simp [hround, hkcur], fun _ => hct, fun h => absurd hround h, fun v _ => v.isLt⟩

/-- The slot of R180 counts the rounds modulo KLEN, which is what R37 (e) says one round earlier. -/
theorem nextSlot_eq_round_mod {s : State} (hs : SessionOk s) (h0 : s.klen ≠ 0) :
    s.nextSlot.toNat = s.round.toNat % s.klen.toNat := by
  obtain ⟨-, hle, hzero, -, hmod, -⟩ := hs
  have hpos : s.klen.toNat ≠ 0 := fun e => h0 (BitVec.eq_of_toNat_eq e)
  by_cases hr : s.round = 0
  · simp [State.nextSlot, hzero.mp hr, hr]
  · have hrpos : s.round.toNat ≠ 0 := fun e => hr (BitVec.eq_of_toNat_eq e)
    have hcpos : s.kcur.toNat ≠ 0 := fun e => hr (hzero.mpr (BitVec.eq_of_toNat_eq e))
    have hround : s.round.toNat = s.klen.toNat * ((s.round.toNat - 1) / s.klen.toNat) + s.kcur.toNat := by
      have := Nat.div_add_mod (s.round.toNat - 1) s.klen.toNat
      have := hmod hr
      omega
    rw [hround, Nat.mul_add_mod]
    by_cases hc : s.kcur ≥ s.klen
    · have heq : s.kcur.toNat = s.klen.toNat := Nat.le_antisymm hle (BitVec.le_def.mp hc)
      simp [State.nextSlot, hc, heq]
    · rw [State.nextSlot, if_neg hc, Nat.mod_eq_of_lt]
      simpa [BitVec.le_def] using hc

/-- The cursor of R180 moves past its slot without wrapping. -/
theorem nextSlot_succ_toNat {s : State} (h0 : s.klen ≠ 0) (h16 : s.klen.toNat ≤ 16) :
    (s.nextSlot + 1).toNat = s.nextSlot.toNat + 1 := by
  have := nextSlot_lt h0
  rw [BitVec.toNat_add]
  simp; omega

/-- Below the limit of R183 the round counter does not wrap. -/
theorem round_succ_toNat {n : BitVec 32} (h : n ≠ 0xFFFFFFFF#32) : (n + 1).toNat = n.toNat + 1 := by
  have : n.toNat ≠ 0xFFFFFFFF := fun e => h (BitVec.eq_of_toNat_eq e)
  have := n.isLt
  rw [BitVec.toNat_add]
  simp; omega

/-- A round keeps R37: the counter and the cursor move on together. -/
theorem sessionOk_commitRound {s : State} (hs : SessionOk s) (h0 : s.klen ≠ 0) (ho : s.round ≠ 0xFFFFFFFF#32)
    (k m b c : Word) : SessionOk (s.commitRound k m b c (s.round + 1) (s.nextSlot + 1)) := by
  have h16 : s.klen.toNat ≤ 16 := hs.1
  have hslot := nextSlot_lt h0
  have hu := nextSlot_succ_toNat h0 h16
  have hr := round_succ_toNat ho
  have hu0 : s.nextSlot + 1 ≠ 0 := fun e => Nat.succ_ne_zero _ (hu.symm.trans (congrArg BitVec.toNat e))
  have hr0 : s.round + 1 ≠ 0 := fun e => Nat.succ_ne_zero _ (hr.symm.trans (congrArg BitVec.toNat e))
  refine ⟨h16, ?_, iff_of_false hr0 hu0, fun e => absurd e hr0, fun _ => ?_, fun v _ => v.isLt⟩
  · show (s.nextSlot + 1).toNat ≤ s.klen.toNat
    omega
  · show (s.nextSlot + 1).toNat - 1 = ((s.round + 1).toNat - 1) % s.klen.toNat
    rw [hu, hr, Nat.add_sub_cancel, Nat.add_sub_cancel, nextSlot_eq_round_mod hs h0]

theorem exec_sessionOk {i : Instr} {s t : State} (h : exec i s = .next t) (hs : SessionOk s) : SessionOk t := by
  cases exec_effect h with
  | read | rejected | sbox | key | perm | clrErr =>
    exact sessionOk_of_eq hs (by simp) (by simp) (by simp) (by simp)
  | msg | reset => exact sessionOk_of_fresh hs.1 rfl rfl rfl
  | klen d n _ hn =>
    have h16 : n.toNat ≤ 16 := klenOperand_toNat hn ▸ (klenOperand_eq_some.mp hn).2.1
    exact sessionOk_of_fresh h16 rfl rfl rfl
  | round _ _ k u h0 ho hk =>
    rw [nextKey_eq h0 hs.1] at hk
    cases hk
    exact sessionOk_respond (sessionOk_commitRound hs h0 ho _ _ _ _) _ _

/-! ## The error record and the responses -/

/-- A rejection leaves a coherent record: the one there was (R213), or its own. -/
theorem recordOk_recordError {s : State} {c : Cause} {a : RegIndex} {w : Bool} (hs : RecordOk s)
    (hf : CauseFits c.code a w) : RecordOk (s.recordError c a w) := by
  cases he : s.err with
  | true => rwa [recordError_of_err he]
  | false => rw [recordError_of_clear he]; exact .inr ⟨rfl, hf⟩

theorem exec_recordOk {i : Instr} {s t : State} (h : exec i s = .next t) (hi : i.wf = true) (hs : RecordOk s) :
    RecordOk t := by
  cases exec_effect h with
  | rejected c a w _ _ hf => exact recordOk_recordError hs (hf hi)
  | clrErr => exact .inl ⟨rfl, rfl, rfl, rfl⟩
  | read | msg | klen | sbox | key | perm | reset | round => exact hs

/-- R214: the response that a request leaves on its way has no data where it has the error bit. -/
theorem exec_response_ok {i : Instr} {s t : State} (h : exec i s = .next t) :
    ∃ r, t.outstanding = some r ∧ (r.err = true → r.rdata = 0) := by
  cases exec_effect h with
  | rejected => exact ⟨_, rfl, fun _ => rfl⟩
  | read | msg | klen | sbox | key | perm | reset | clrErr | round => exact ⟨_, rfl, fun he => nomatch he⟩

theorem exec_responsesOk {i : Instr} {s t : State} (h : exec i s = .next t) (hs : ResponsesOk s) :
    ResponsesOk t := by
  obtain ⟨r, hr, hok⟩ := exec_response_ok h
  have hrec : ∀ r ∈ s.received, r.err = true → r.rdata = 0 := fun r hm => hs r (List.mem_append_right _ hm)
  simpa [ResponsesOk, hr, (exec_port_frame h).2] using And.intro hok hrec

/-! ## The invariant -/

theorem exec_inv {i : Instr} {s t : State} (h : exec i s = .next t) (hi : i.wf = true) (hs : Inv s) : Inv t := by
  obtain ⟨hsession, hrecord, hresponses⟩ := hs
  exact ⟨exec_sessionOk h hsession, exec_recordOk h hi hrecord, exec_responsesOk h hresponses⟩

/-- Delivering a response moves it from the port to the host and touches no register. -/
theorem answer_inv {s : State} (hs : Inv s) (rest : List PortEvent) : Inv (answer s rest) := by
  obtain ⟨hsession, hrecord, hresponses⟩ := hs
  refine ⟨sessionOk_of_eq hsession (by simp) (by simp) (by simp) (by simp), ?_, fun r hr => hresponses r ?_⟩
  · simpa [RecordOk] using hrecord
  · simpa [or_comm] using hr

/-- Settles O35: the reset state is a fresh session with a clear record and nothing delivered. -/
theorem invariantHoldsAtReset : Obligations.InvariantHoldsAtReset :=
  ⟨sessionOk_of_fresh (by decide) rfl rfl rfl, .inl ⟨rfl, rfl, rfl, rfl⟩, fun _ h => nomatch h⟩

/-- A reset edge keeps the responses already delivered and nothing else of the state before. -/
theorem hardwareReset_inv {s : State} (hs : Inv s) (rest : List PortEvent) : Inv (hardwareReset s rest) := by
  obtain ⟨hsession, hrecord, -⟩ := invariantHoldsAtReset
  obtain ⟨-, -, hresponses⟩ := hs
  exact ⟨hsession, hrecord, fun r hr => hresponses r (List.mem_append_right _ hr)⟩

/-- Settles O36, by the four things a step can do. -/
theorem stepKeepsInvariant : Obligations.StepKeepsInvariant := by
  intro s t hs h
  rcases step_next_cases h with ⟨rest, -, rfl⟩ | ⟨rest, rfl⟩ | ⟨rest, rfl⟩ | ⟨q, rest, -, -, he⟩
  · exact hardwareReset_inv hs rest
  · exact hs
  · exact answer_inv hs rest
  · have hs' : Inv { s with inbox := rest } := hs
    exact exec_inv he (decode_wf q) hs'

/-! ## What ROUND does, case by case -/

section Round

variable {s : State}

theorem execCmdRound_of_noKeys (h0 : s.klen = 0) : execCmdRound s = reject s .noKeys 0x01#8 true := if_pos h0

theorem execCmdRound_of_permInvalid (h0 : s.klen ≠ 0) (hb : ¬ bijective s.perm = true) :
    execCmdRound s = reject s .permInvalid 0x01#8 true := by
  rw [execCmdRound, if_neg h0, dif_neg hb]

theorem execCmdRound_of_roundOvf (h0 : s.klen ≠ 0) (hb : bijective s.perm = true) (ho : s.round = 0xFFFFFFFF#32) :
    execCmdRound s = reject s .roundOvf 0x01#8 true := by
  rw [execCmdRound, if_neg h0, dif_pos hb, if_pos ho]

theorem execCmdRound_of_nextKey_none (h0 : s.klen ≠ 0) (hb : bijective s.perm = true)
    (ho : s.round ≠ 0xFFFFFFFF#32) (hk : s.nextKey = none) : execCmdRound s = .fault .keySlotAbsent := by
  rw [execCmdRound, if_neg h0, dif_pos hb, if_neg ho, hk]

/-- The round itself: its input `x`, mix `m` and substitution `b` are those of R181. -/
theorem execCmdRound_of_nextKey_some {k x m b : Word} {u : BitVec 5} (h0 : s.klen ≠ 0)
    (hb : bijective s.perm = true) (ho : s.round ≠ 0xFFFFFFFF#32) (hk : s.nextKey = some (k, u))
    (hx : x = if s.round + 1 = 1 then s.msg else s.ct) (hm : m = keyMix x k) (hs : b = substitute s.sbox m) :
    execCmdRound s = acceptWrite (s.commitRound k m b (permute s.perm hb b) (s.round + 1) u) := by
  rw [execCmdRound, if_neg h0, dif_pos hb, if_neg ho, hk, hs, hm, hx]

end Round

/-! ## A ROUND without a key slot -/

theorem nextSlot_toNat (s : State) : s.nextSlot.toNat = slotOf s := by
  unfold State.nextSlot slotOf
  by_cases h : s.kcur ≥ s.klen
  · rw [if_pos h, if_pos (BitVec.le_def.mp h)]; rfl
  · rw [if_neg h, if_neg (fun h' => h (BitVec.le_def.mpr h'))]

theorem nextKey_eq_none {s : State} (h : 16 ≤ slotOf s) : s.nextKey = none := by
  rw [State.nextKey, dif_neg (by rw [nextSlot_toNat]; omega)]

/-- Settles O24: the three checks of R181 pass, and `NextKey` has no key to give. -/
theorem roundStopsWhereNoKeySlotIs : Obligations.RoundStopsWhereNoKeySlotIs := by
  intro s h0 hd ho h16
  have hb : bijective s.perm = true := (bijective_iff_injective s.perm).mpr hd
  exact execCmdRound_of_nextKey_none h0 hb ho (nextKey_eq_none h16)

/-! ## Which request resets the round state -/

/-- The three requests that reset the round state (R34), a KLEN write where its length is legal. -/
def ResetsRoundState (i : Instr) : Prop :=
  (∃ d, i = .wrMsg d) ∨ (∃ d : Word, i = .wrKlen d ∧ 1 ≤ d.toNat ∧ d.toNat ≤ 16) ∨ i = .cmdReset

/-- R151, accepted. -/
theorem exec_wrKlen_of_operand {d : Word} {n : BitVec 5} (h : klenOperand d = some n) (s : State) :
    exec (.wrKlen d) s = .next ((s.setKlen n).roundStateReset.respond false 0) := by
  simp [exec, execWrKlen, acceptWrite, h]

theorem exec_roundState_of_resets {i : Instr} {s t : State} (h : exec i s = .next t) (hi : ResetsRoundState i) :
    t.ct = 0 ∧ t.round = 0 ∧ t.kcur = 0 := by
  rcases hi with ⟨d, rfl⟩ | ⟨d, rfl, h1, h16⟩ | rfl
  · cases h; exact ⟨rfl, rfl, rfl⟩
  · rw [exec_wrKlen_of_operand (klenOperand_eq_some.mpr ⟨h1, h16, rfl⟩)] at h
    cases h; exact ⟨rfl, rfl, rfl⟩
  · cases h; exact ⟨rfl, rfl, rfl⟩

theorem exec_roundState_of_not_resets {i : Instr} {s t : State} (h : exec i s = .next t) (hr : i ≠ .cmdRound)
    (hi : ¬ ResetsRoundState i) : t.ct = s.ct ∧ t.round = s.round ∧ t.kcur = s.kcur := by
  cases exec_effect h with
  | msg d e => exact absurd (.inl ⟨d, e⟩) hi
  | klen d n e hn =>
    obtain ⟨h1, h16, -⟩ := klenOperand_eq_some.mp hn
    exact absurd (.inr (.inl ⟨d, e, h1, h16⟩)) hi
  | reset e => exact absurd (.inr (.inr e)) hi
  | round e => exact absurd e hr
  | read | rejected | sbox | key | perm | clrErr => simp

/-- Settles O40: the three requests, and by the inversion lemma of `exec` every other one. -/
theorem onlyThreeRequestsResetRoundState : Obligations.OnlyThreeRequestsResetRoundState :=
  fun _ _ _ h hr => ⟨exec_roundState_of_resets h, exec_roundState_of_not_resets h hr⟩

/-! ## Which request writes which register -/

section OneWriter

variable {i : Instr} {s t : State} (h : exec i s = .next t)
include h

theorem eq_wrMsg_of_msg_ne (hne : t.msg ≠ s.msg) : ∃ d, i = .wrMsg d := by
  cases exec_effect h with
  | msg d e => exact ⟨d, e⟩
  | _ => simp at hne

theorem eq_wrKlen_of_klen_ne (hne : t.klen ≠ s.klen) : ∃ d, i = .wrKlen d := by
  cases exec_effect h with
  | klen d _ e => exact ⟨d, e⟩
  | _ => simp at hne

theorem eq_wrSbox_of_sbox_ne (hne : t.sbox ≠ s.sbox) : ∃ d, i = .wrSbox d := by
  cases exec_effect h with
  | sbox d e => exact ⟨d, e⟩
  | _ => simp at hne

theorem eq_wrKey_of_keys_ne (hne : t.keys ≠ s.keys) : ∃ j d, i = .wrKey j d := by
  cases exec_effect h with
  | key j d e => exact ⟨j, d, e⟩
  | _ => simp at hne

theorem eq_wrPerm_of_perm_ne (hne : t.perm ≠ s.perm) : ∃ p d, i = .wrPerm p d := by
  cases exec_effect h with
  | perm p d _ e => exact ⟨p, d, e⟩
  | _ => simp at hne

theorem eq_cmdRound_of_debug_ne (hne : t.dbgKey ≠ s.dbgKey ∨ t.dbgMix ≠ s.dbgMix ∨ t.dbgSub ≠ s.dbgSub) :
    i = .cmdRound := by
  cases exec_effect h with
  | round e => exact e
  | _ => simp at hne

end OneWriter

/-- Settles O41, register by register. -/
theorem eachRegisterHasOneWriter : Obligations.EachRegisterHasOneWriter :=
  fun _ _ _ h => ⟨eq_wrMsg_of_msg_ne h, eq_wrKlen_of_klen_ne h, eq_wrSbox_of_sbox_ne h, eq_wrKey_of_keys_ne h,
    eq_wrPerm_of_perm_ne h, eq_cmdRound_of_debug_ne h⟩

/-! ## The DBG registers

`eraseDebug` forgets them. A request but their own reads commutes with it, so two states that agree once they are forgotten
go to two that do. -/

/-- The state with the DBG registers forgotten. -/
def State.eraseDebug (s : State) : State := { s with dbgKey := 0, dbgMix := 0, dbgSub := 0 }

/-- An outcome with the DBG registers of its next state forgotten. -/
def eraseDebugOutcome : Host.Outcome State Fault Refusal → Host.Outcome State Fault Refusal
  | .next s => .next s.eraseDebug
  | .fault f => .fault f
  | .refused r => .refused r

theorem sameButDebug_iff {s t : State} : SameButDebug s t ↔ s.eraseDebug = t.eraseDebug := Iff.rfl

theorem eraseDebugOutcome_eq_next {o : Host.Outcome State Fault Refusal} {u : State}
    (h : eraseDebugOutcome o = .next u) : ∃ t, o = .next t ∧ t.eraseDebug = u := by
  cases o with
  | next t => cases h; exact ⟨t, rfl, rfl⟩
  | fault f => cases h
  | refused r => cases h

theorem reject_eraseDebug (s : State) (c : Cause) (a : RegIndex) (w : Bool) :
    eraseDebugOutcome (reject s.eraseDebug c a w) = eraseDebugOutcome (reject s c a w) := by
  unfold reject
  cases he : s.err with
  | true => rw [recordError_of_err he, recordError_of_err (s := s.eraseDebug) he]; rfl
  | false => rw [recordError_of_clear he, recordError_of_clear (s := s.eraseDebug) he]; rfl

/-- ROUND writes the DBG registers and reads none. -/
theorem execCmdRound_eraseDebug (s : State) :
    eraseDebugOutcome (execCmdRound s.eraseDebug) = eraseDebugOutcome (execCmdRound s) := by
  by_cases h0 : s.klen = 0
  · rw [execCmdRound_of_noKeys h0, execCmdRound_of_noKeys (s := s.eraseDebug) h0, reject_eraseDebug]
  by_cases hb : bijective s.perm = true
  · by_cases ho : s.round = 0xFFFFFFFF#32
    · rw [execCmdRound_of_roundOvf h0 hb ho, execCmdRound_of_roundOvf (s := s.eraseDebug) h0 hb ho, reject_eraseDebug]
    · cases hk : s.nextKey with
      | none =>
        rw [execCmdRound_of_nextKey_none h0 hb ho hk, execCmdRound_of_nextKey_none (s := s.eraseDebug) h0 hb ho hk]
      | some ku =>
        rw [execCmdRound_of_nextKey_some h0 hb ho hk rfl rfl rfl,
          execCmdRound_of_nextKey_some (s := s.eraseDebug) h0 hb ho hk rfl rfl rfl]
        rfl
  · rw [execCmdRound_of_permInvalid h0 hb, execCmdRound_of_permInvalid (s := s.eraseDebug) h0 hb, reject_eraseDebug]

theorem exec_eraseDebug {i : Instr} (hi : ¬ ReadsDebug i) (s : State) :
    eraseDebugOutcome (exec i s.eraseDebug) = eraseDebugOutcome (exec i s) := by
  cases i with
  | rdDbgKey => exact absurd (.inl rfl) hi
  | rdDbgMix => exact absurd (.inr (.inl rfl)) hi
  | rdDbgSub => exact absurd (.inr (.inr rfl)) hi
  | cmdRound => exact execCmdRound_eraseDebug s
  | wrKlen d =>
    simp only [exec, execWrKlen]
    cases klenOperand d with
    | none => exact reject_eraseDebug s _ _ _
    | some n => rfl
  | wrPerm p d =>
    simp only [exec, execWrPerm]
    cases permOperand d with
    | none => exact reject_eraseDebug s _ _ _
    | some v => rfl
  | cmdIllegal | wrRoId | wrRoStatus | wrRoCt | wrRoRound | wrRoKcur | wrRoDbgKey | wrRoDbgMix | wrRoDbgSub
  | accUnmapped0C0F | accUnmapped203F | accUnmapped80FF => exact reject_eraseDebug s _ _ _
  | rdId | rdCmd | rdStatus | rdMsg | rdCt | rdRound | rdKlen | rdKcur | rdSbox | rdKey | rdPerm
  | cmdReset | cmdClrErr | wrMsg | wrSbox | wrKey => rfl

/-- A DBG read leaves the state but for the response on its way. -/
theorem exec_of_readsDebug {i : Instr} (hi : ReadsDebug i) (s : State) : ∃ v, exec i s = .next (s.respond false v) := by
  rcases hi with rfl | rfl | rfl
  · exact ⟨s.dbgKey, rfl⟩
  · exact ⟨s.dbgMix, rfl⟩
  · exact ⟨s.dbgSub, rfl⟩

/-- Two responses, delivered or dropped, leave two states as alike as they were. -/
theorem sameButDebug_respond {s t : State} (h : SameButDebug s t) (v w : Word) :
    SameButDebug { s.respond false v with outstanding := none } { t.respond false w with outstanding := none } := by
  have hdrop := congrArg (fun u : State => { u with outstanding := none }) h
  exact hdrop

/-- Settles O43: a DBG read changes only the response, and every other request commutes with forgetting the registers. -/
theorem debugRegistersInfluenceNothingElse : Obligations.DebugRegistersInfluenceNothingElse := by
  intro i s₁ s₂ t₁ hs h
  by_cases hi : ReadsDebug i
  · obtain ⟨v₁, h₁⟩ := exec_of_readsDebug hi s₁
    obtain ⟨v₂, h₂⟩ := exec_of_readsDebug hi s₂
    cases h₁.symm.trans h
    exact ⟨_, h₂, fun _ => sameButDebug_respond hs v₁ v₂, fun hn => absurd hi hn⟩
  · have he : eraseDebugOutcome (exec i s₂) = .next t₁.eraseDebug := by
      rw [← exec_eraseDebug hi, ← sameButDebug_iff.mp hs, exec_eraseDebug hi, h]; rfl
    obtain ⟨t₂, h₂, ht⟩ := eraseDebugOutcome_eq_next he
    exact ⟨t₂, h₂, fun hr => absurd hr hi, fun _ => sameButDebug_iff.mpr ht.symm⟩

end Sys2Proof.Machine

/-! Proofs of the statements of the family 20_memory.md: the step at a ready port, and repeated requests. -/

namespace Sys2Proof.Machine

open Claims

/-- Settles O3: the port law of a request that transfers. -/
theorem stepPerformsDecodedRequest : Obligations.StepPerformsDecodedRequest :=
  fun _ _ _ => step_request_ready

/-! ## Repeated requests -/

section Rejection

variable {s t : State} {c : Cause} {a : RegIndex} {w : Bool} (h : reject s c a w = .next t)
include h

/-- The registers that the checks of ROUND read (R181) are none that a rejection changes (R215). -/
theorem reject_roundChecks_frame : t.klen = s.klen ∧ t.perm = s.perm ∧ t.round = s.round := by
  cases h; simp

/-- The first rejection leaves ERR = 1, so the second finds the record taken (R213). -/
theorem reject_repeat : reject t c a w = .next t := by
  cases h
  rw [reject, recordError_of_err (by simp)]
  rfl

end Rejection

/-- A rejected ROUND fails the same check again. -/
theorem execCmdRound_repeat_of_rejected {s t : State} (h : execCmdRound s = .next t)
    (hr : t.outstanding = rejectedRsp) : execCmdRound t = .next t := by
  by_cases h0 : s.klen = 0
  · rw [execCmdRound_of_noKeys h0] at h
    obtain ⟨hklen, -, -⟩ := reject_roundChecks_frame h
    rw [execCmdRound_of_noKeys (hklen ▸ h0), reject_repeat h]
  by_cases hb : bijective s.perm = true
  · by_cases ho : s.round = 0xFFFFFFFF#32
    · rw [execCmdRound_of_roundOvf h0 hb ho] at h
      obtain ⟨hklen, hperm, hround⟩ := reject_roundChecks_frame h
      rw [execCmdRound_of_roundOvf (hklen ▸ h0) (hperm ▸ hb) (hround ▸ ho), reject_repeat h]
    · cases hk : s.nextKey with
      | none => rw [execCmdRound_of_nextKey_none h0 hb ho hk] at h; cases h
      | some ku =>
        rw [execCmdRound_of_nextKey_some h0 hb ho hk rfl rfl rfl] at h
        cases h; cases hr
  · rw [execCmdRound_of_permInvalid h0 hb] at h
    obtain ⟨hklen, hperm, -⟩ := reject_roundChecks_frame h
    rw [execCmdRound_of_permInvalid (hklen ▸ h0) (hperm ▸ hb), reject_repeat h]

theorem acceptWrite_setKey_repeat {s t : State} {j : KeySlot} {d : Word}
    (h : acceptWrite (s.setKey j d) = .next t) : acceptWrite (t.setKey j d) = .next t := by
  cases h
  simp [acceptWrite, State.setKey, State.respond]

theorem acceptWrite_setPerm_repeat {s t : State} {p v : PermEntry}
    (h : acceptWrite (s.setPerm p v) = .next t) : acceptWrite (t.setPerm p v) = .next t := by
  cases h
  simp [acceptWrite, State.setPerm, State.respond]

/-- A request but ROUND writes constants, which it finds in place the second time, and reads what no response touches. -/
theorem exec_repeat_of_ne_cmdRound {i : Instr} {s t : State} (h : exec i s = .next t) (hi : i ≠ .cmdRound) :
    exec i t = .next t := by
  cases i with
  | cmdRound => exact absurd rfl hi
  | wrKlen d =>
    cases hn : klenOperand d with
    | none =>
      simp only [exec, execWrKlen, hn] at h ⊢
      exact reject_repeat h
    | some n =>
      rw [exec_wrKlen_of_operand hn] at h ⊢
      cases h; rfl
  | wrPerm p d =>
    cases hv : permOperand d with
    | none =>
      simp only [exec, execWrPerm, hv] at h ⊢
      exact reject_repeat h
    | some v =>
      simp only [exec, execWrPerm, hv] at h ⊢
      exact acceptWrite_setPerm_repeat h
  | wrKey => exact acceptWrite_setKey_repeat h
  | cmdIllegal | wrRoId | wrRoStatus | wrRoCt | wrRoRound | wrRoKcur | wrRoDbgKey | wrRoDbgMix | wrRoDbgSub
  | accUnmapped0C0F | accUnmapped203F | accUnmapped80FF => exact reject_repeat h
  | rdId | rdCmd | rdStatus | rdMsg | rdCt | rdRound | rdKlen | rdKcur | rdSbox | rdDbgKey | rdDbgMix | rdDbgSub
  | rdKey | rdPerm | cmdReset | cmdClrErr | wrMsg | wrSbox => cases h; rfl

/-- Settles O42: a rejected ROUND by the order of its checks, every other request by its own meaning. -/
theorem repeatedRequestChangesNothingMore : Obligations.RepeatedRequestChangesNothingMore := by
  intro i s t h hcase
  by_cases hi : i = .cmdRound
  · subst hi
    exact execCmdRound_repeat_of_rejected h (hcase.resolve_left (fun hne => hne rfl))
  · exact exec_repeat_of_ne_cmdRound h hi

end Sys2Proof.Machine

/-! Proofs of the statements of the family 30_encoding.md: decoder and encoder, the two forms of the step, and the port. -/

namespace Sys2Proof

open Machine

/-! ## The address map

The rows of R36 as a case split of the indices: every proof about the decoder and about the address step of R74 goes by it. -/

/-- The row of the address map that an index belongs to (R36). -/
inductive AddressRow : RegIndex → Prop where
  | id : AddressRow 0x00#8
  | cmd : AddressRow 0x01#8
  | status : AddressRow 0x02#8
  | msg : AddressRow 0x03#8
  | ct : AddressRow 0x04#8
  | round : AddressRow 0x05#8
  | klen : AddressRow 0x06#8
  | kcur : AddressRow 0x07#8
  | sbox : AddressRow 0x08#8
  | dbgKey : AddressRow 0x09#8
  | dbgMix : AddressRow 0x0A#8
  | dbgSub : AddressRow 0x0B#8
  | key (j : KeySlot) : AddressRow (keyIndex j)
  | perm (i : PermEntry) : AddressRow (permIndex i)
  | unmapped (a : RegIndex) (h : mapped a = false) : AddressRow a

theorem addressRow_of_fixed {a : RegIndex} (h : a ≤ 0x0B#8) : AddressRow a := by
  obtain ⟨n, hn, rfl⟩ := fixedIndex_cases h
  interval_cases n
  exacts [.id, .cmd, .status, .msg, .ct, .round, .klen, .kcur, .sbox, .dbgKey, .dbgMix, .dbgSub]

theorem addressRow (a : RegIndex) : AddressRow a := by
  cases hm : mapped a with
  | false => exact .unmapped a hm
  | true =>
    rcases (mapped_iff a).mp hm with hfixed | ⟨hlo, hhi⟩ | ⟨hlo, hhi⟩
    · exact addressRow_of_fixed hfixed
    · exact keyIndex_addrKeySlot a hlo hhi ▸ .key (addrKeySlot a)
    · exact permIndex_addrPermEntry a hlo hhi ▸ .perm (addrPermEntry a)

theorem mapped_keyIndex (j : KeySlot) : mapped (keyIndex j) = true :=
  (mapped_iff _).mpr (.inr (.inl (keyIndex_range j)))

theorem mapped_permIndex (i : PermEntry) : mapped (permIndex i) = true :=
  (mapped_iff _).mpr (.inr (.inr (permIndex_range i)))

theorem keyIndex_not_fixed (j : KeySlot) : ¬ keyIndex j ≤ 0x0B#8 := by
  revert j; decide

theorem permIndex_not_fixed (i : PermEntry) : ¬ permIndex i ≤ 0x0B#8 := by
  revert i; decide

theorem permIndex_above_keys (i : PermEntry) : ¬ permIndex i ≤ 0x1F#8 := by
  revert i; decide

theorem permIndex_not_key (i : PermEntry) : ¬ (permIndex i).extractLsb' 4 4 = 0b0001#4 := by
  revert i; decide

/-- An index that is no fixed register's differs from each of theirs. -/
theorem ne_of_not_fixed {a : RegIndex} (h : ¬ a ≤ 0x0B#8) {b : RegIndex} (hb : b ≤ 0x0B#8) : a ≠ b :=
  fun e => h (e ▸ hb)

section Unmapped

variable {a : RegIndex} (h : mapped a = false)
include h

theorem not_fixed_of_unmapped : ¬ a ≤ 0x0B#8 := fun hfixed => by
  simp [(mapped_iff a).mpr (.inl hfixed)] at h

theorem not_key_of_unmapped : ¬ a.extractLsb' 4 4 = 0b0001#4 := fun hkey => by
  simp [(mapped_iff a).mpr (.inr (.inl ((key_pattern_iff a).mp hkey)))] at h

theorem not_perm_of_unmapped : ¬ a.extractLsb' 6 2 = 0b01#2 := fun hperm => by
  simp [(mapped_iff a).mpr (.inr (.inr ((perm_pattern_iff a).mp hperm)))] at h

end Unmapped

/-! ## The decoder, row by row -/

theorem exists_mkRequest (q : Request) : ∃ we a d, q = mkRequest we a d :=
  ⟨reqWe q, reqAddr q, reqData q, (mkRequest_fields q).symm⟩

@[simp] theorem decode_mkRequest_read (a : RegIndex) (d : Word) : decode (mkRequest false a d) = decodeRead a := by
  simp [decode]

@[simp] theorem decode_mkRequest_write (a : RegIndex) (d : Word) :
    decode (mkRequest true a d) = decodeWrite a d := by
  simp [decode]

/-- Above the fixed registers a read is decoded by its index pattern (R83 rows 13, 14, 25). -/
theorem decodeRead_of_not_fixed {a : RegIndex} (h : ¬ a ≤ 0x0B#8) :
    decodeRead a = if a.extractLsb' 4 4 = 0b0001#4 then .rdKey (addrKeySlot a)
      else if a.extractLsb' 6 2 = 0b01#2 then .rdPerm (addrPermEntry a) else decodeUnmapped false a := by
  simp [decodeRead, ne_of_not_fixed h]

/-- Above the fixed registers a write is decoded by its index pattern (R83 rows 22, 23, 25). -/
theorem decodeWrite_of_not_fixed {a : RegIndex} (h : ¬ a ≤ 0x0B#8) (d : Word) :
    decodeWrite a d = if a.extractLsb' 4 4 = 0b0001#4 then .wrKey (addrKeySlot a) d
      else if a.extractLsb' 6 2 = 0b01#2 then .wrPerm (addrPermEntry a) d else decodeUnmapped true a := by
  simp [decodeWrite, ne_of_not_fixed h]

@[simp] theorem decodeRead_keyIndex (j : KeySlot) : decodeRead (keyIndex j) = .rdKey j := by
  simp [decodeRead_of_not_fixed (keyIndex_not_fixed j)]

@[simp] theorem decodeRead_permIndex (i : PermEntry) : decodeRead (permIndex i) = .rdPerm i := by
  simp [decodeRead_of_not_fixed (permIndex_not_fixed i), permIndex_not_key]

@[simp] theorem decodeWrite_keyIndex (j : KeySlot) (d : Word) : decodeWrite (keyIndex j) d = .wrKey j d := by
  simp [decodeWrite_of_not_fixed (keyIndex_not_fixed j)]

@[simp] theorem decodeWrite_permIndex (i : PermEntry) (d : Word) : decodeWrite (permIndex i) d = .wrPerm i d := by
  simp [decodeWrite_of_not_fixed (permIndex_not_fixed i), permIndex_not_key]

theorem decodeRead_of_unmapped {a : RegIndex} (h : mapped a = false) : decodeRead a = decodeUnmapped false a := by
  rw [decodeRead_of_not_fixed (not_fixed_of_unmapped h), if_neg (not_key_of_unmapped h),
    if_neg (not_perm_of_unmapped h)]

theorem decodeWrite_of_unmapped {a : RegIndex} (h : mapped a = false) (d : Word) :
    decodeWrite a d = decodeUnmapped true a := by
  rw [decodeWrite_of_not_fixed (not_fixed_of_unmapped h), if_neg (not_key_of_unmapped h),
    if_neg (not_perm_of_unmapped h)]

/-- Row 25 of R83, whatever the direction and the write data. -/
theorem decode_mkRequest_of_unmapped {a : RegIndex} (h : mapped a = false) (we : Bool) (d : Word) :
    decode (mkRequest we a d) = decodeUnmapped we a := by
  cases we with
  | false => rw [decode_mkRequest_read, decodeRead_of_unmapped h]
  | true => rw [decode_mkRequest_write, decodeWrite_of_unmapped h]

/-- A command word that is none of the three legal ones (R83 row 18). -/
theorem decodeCommand_of_illegal {d : Word} (h : (Instr.cmdIllegal d).wf = true) :
    decodeCommand d = .cmdIllegal d := by
  simp only [Instr.wf, Bool.and_eq_true, bne_iff_ne] at h
  obtain ⟨⟨h1, h2⟩, h3⟩ := h
  rw [decodeCommand, if_neg h1, if_neg h2, if_neg h3]

/-! The unmapped ranges against the patterns of R83 row 25. -/

theorem unmapped0C_pattern_iff : ∀ a : RegIndex, a.extractLsb' 2 6 = 0b000011#6 ↔ 0x0C#8 ≤ a ∧ a ≤ 0x0F#8 := by
  decide +kernel

theorem unmapped20_pattern_iff : ∀ a : RegIndex, a.extractLsb' 5 3 = 0b001#3 ↔ 0x20#8 ≤ a ∧ a ≤ 0x3F#8 := by
  decide +kernel

theorem decodeUnmapped_of_0C0F {a : RegIndex} (h : 0x0C#8 ≤ a ∧ a ≤ 0x0F#8) (we : Bool) :
    decodeUnmapped we a = .accUnmapped0C0F we a :=
  if_pos ((unmapped0C_pattern_iff a).mpr h)

theorem decodeUnmapped_of_203F {a : RegIndex} (h : 0x20#8 ≤ a ∧ a ≤ 0x3F#8) (we : Bool) :
    decodeUnmapped we a = .accUnmapped203F we a := by
  have h0C : ¬ (0x0C#8 ≤ a ∧ a ≤ 0x0F#8) := by bv_omega
  rw [decodeUnmapped, if_neg (mt (unmapped0C_pattern_iff a).mp h0C), if_pos ((unmapped20_pattern_iff a).mpr h)]

theorem decodeUnmapped_of_80FF {a : RegIndex} (h : 0x80#8 ≤ a) (we : Bool) :
    decodeUnmapped we a = .accUnmapped80FF we a := by
  have h0C : ¬ (0x0C#8 ≤ a ∧ a ≤ 0x0F#8) := by bv_omega
  have h20 : ¬ (0x20#8 ≤ a ∧ a ≤ 0x3F#8) := by bv_omega
  rw [decodeUnmapped, if_neg (mt (unmapped0C_pattern_iff a).mp h0C), if_neg (mt (unmapped20_pattern_iff a).mp h20)]

/-! ## Decode of encode, encode of decode -/

/-- Settles O31, row by row: a fixed register's row by running the decoder on its index, the others by their patterns. -/
theorem decodeOfEncodeIsTheInstruction : Obligations.DecodeOfEncodeIsTheInstruction := by
  intro i hwf
  cases i with
  | rdId | rdCmd | rdStatus | rdMsg | rdCt | rdRound | rdKlen | rdKcur | rdSbox | rdDbgKey | rdDbgMix | rdDbgSub =>
    exact decode_mkRequest_read _ _
  | rdKey j => exact (decode_mkRequest_read _ _).trans (decodeRead_keyIndex j)
  | rdPerm i => exact (decode_mkRequest_read _ _).trans (decodeRead_permIndex i)
  | cmdRound | cmdReset | cmdClrErr | wrMsg | wrKlen | wrSbox | wrRoId | wrRoStatus | wrRoCt | wrRoRound | wrRoKcur
  | wrRoDbgKey | wrRoDbgMix | wrRoDbgSub => exact decode_mkRequest_write _ _
  | cmdIllegal d => exact (decode_mkRequest_write _ _).trans (decodeCommand_of_illegal hwf)
  | wrKey j d => exact (decode_mkRequest_write _ _).trans (decodeWrite_keyIndex j d)
  | wrPerm i d => exact (decode_mkRequest_write _ _).trans (decodeWrite_permIndex i d)
  | accUnmapped0C0F we a =>
    have h : 0x0C#8 ≤ a ∧ a ≤ 0x0F#8 := by simpa [Instr.wf] using hwf
    rw [encode, decode_mkRequest_of_unmapped (not_mapped_of_wf a (.inl h)), decodeUnmapped_of_0C0F h]
  | accUnmapped203F we a =>
    have h : 0x20#8 ≤ a ∧ a ≤ 0x3F#8 := by simpa [Instr.wf] using hwf
    rw [encode, decode_mkRequest_of_unmapped (not_mapped_of_wf a (.inr (.inl h))), decodeUnmapped_of_203F h]
  | accUnmapped80FF we a =>
    have h : 0x80#8 ≤ a := by simpa [Instr.wf] using hwf
    rw [encode, decode_mkRequest_of_unmapped (not_mapped_of_wf a (.inr (.inr h))), decodeUnmapped_of_80FF h]

/-- An unmapped access keeps its direction and its index, and no write data (log entry 7). -/
theorem encode_decodeUnmapped (we : Bool) (a : RegIndex) : encode (decodeUnmapped we a) = mkRequest we a 0 := by
  unfold decodeUnmapped
  split
  · rfl
  · split <;> rfl

theorem encode_decodeCommand (d : Word) : encode (decodeCommand d) = mkRequest true 0x01#8 d := by
  unfold decodeCommand
  split_ifs with hround hreset hclr
  · rw [hround]; rfl
  · rw [hreset]; rfl
  · rw [hclr]; rfl
  · rfl

theorem encode_decodeRead (a : RegIndex) : encode (decodeRead a) = mkRequest false a 0 := by
  cases addressRow a with
  | key j => rw [decodeRead_keyIndex]; rfl
  | perm i => rw [decodeRead_permIndex]; rfl
  | unmapped _ h => rw [decodeRead_of_unmapped h, encode_decodeUnmapped]
  | _ => rfl

theorem encode_decodeWrite_of_mapped {a : RegIndex} (hm : mapped a = true) (d : Word) :
    encode (decodeWrite a d) = mkRequest true a d := by
  cases addressRow a with
  | cmd => exact encode_decodeCommand d
  | key j => rw [decodeWrite_keyIndex]; rfl
  | perm i => rw [decodeWrite_permIndex]; rfl
  | unmapped _ h => rw [h] at hm; cases hm
  | _ => rfl

/-- Settles O32: write data is kept where it takes part, by direction and by the address map. -/
theorem encodeOfDecodeIsTheRequest : Obligations.EncodeOfDecodeIsTheRequest := by
  intro q
  obtain ⟨we, a, d, rfl⟩ := exists_mkRequest q
  rw [reqWe_mkRequest, reqAddr_mkRequest, reqData_mkRequest]
  cases we with
  | false => rw [decode_mkRequest_read, encode_decodeRead, if_neg (by simp)]
  | true =>
    rw [decode_mkRequest_write]
    cases hm : mapped a with
    | true => rw [encode_decodeWrite_of_mapped hm, if_pos ⟨rfl, rfl⟩]
    | false => rw [decodeWrite_of_unmapped hm, encode_decodeUnmapped, if_neg (by simp)]

/-- Settles O34: the decoder run on each word. -/
theorem specWordsDecode : Obligations.SpecWordsDecode := by
  unfold Obligations.SpecWordsDecode
  decide

end Sys2Proof

namespace Sys2Proof.Machine

/-! ## The decode table against the step by address -/

/-- R156: an unmapped access is rejected whichever of the three rows it has. -/
theorem exec_decodeUnmapped (we : Bool) (a : RegIndex) (s : State) :
    exec (decodeUnmapped we a) s = reject s .badAddr a we := by
  unfold decodeUnmapped
  split
  · rfl
  · split <;> rfl

/-- A command word is its fields RSVD and OP (R76). -/
theorem commandWord_eq_iff (d : Word) (op : BitVec 8) :
    d = op.setWidth 64 ↔ d.extractLsb' 8 56 = 0#56 ∧ d.extractLsb' 0 8 = op := by
  have hd := d.isLt
  have hop := op.isLt
  simp only [← BitVec.toNat_inj, BitVec.toNat_setWidth, BitVec.extractLsb'_toNat, Nat.shiftRight_eq_div_pow,
    BitVec.toNat_ofNat]
  omega

/-- R190: the three legal command words by value, as R83 has them, and by field. -/
theorem exec_decodeCommand (d : Word) (s : State) : exec (decodeCommand d) s = command d s := by
  have hround : d = 1#64 ↔ _ := commandWord_eq_iff d 0x01#8
  have hreset : d = 2#64 ↔ _ := commandWord_eq_iff d 0x02#8
  have hclr : d = 3#64 ↔ _ := commandWord_eq_iff d 0x03#8
  rw [decodeCommand, command]
  by_cases hrsvd : d.extractLsb' 8 56 = 0#56
  · simp only [hround, hreset, hclr, hrsvd, true_and, ne_eq, not_true_eq_false, if_false]
    split_ifs <;> rfl
  · simp only [hround, hreset, hclr, hrsvd, false_and, ne_eq, not_false_eq_true, if_true, if_false]
    rfl

section ReadValue

variable (s : State)

theorem readValue_of_not_fixed {a : RegIndex} (h : ¬ a ≤ 0x0B#8) :
    readValue s a = if a ≤ 0x1F#8 then s.key (addrKeySlot a) else s.permWord (addrPermEntry a) := by
  simp [readValue, ne_of_not_fixed h]

theorem readValue_keyIndex (j : KeySlot) : readValue s (keyIndex j) = s.key j := by
  rw [readValue_of_not_fixed s (keyIndex_not_fixed j), if_pos (keyIndex_range j).2, addrKeySlot_keyIndex]

theorem readValue_permIndex (i : PermEntry) : readValue s (permIndex i) = s.permWord i := by
  rw [readValue_of_not_fixed s (permIndex_not_fixed i), if_neg (permIndex_above_keys i), addrPermEntry_permIndex]

end ReadValue

/-! The step of R74, check by check. -/

section RequestStep

variable (s : State) {a : RegIndex} (d : Word)

theorem requestStep_of_unmapped (hm : mapped a = false) (we : Bool) :
    requestStep (mkRequest we a d) s = reject s .badAddr a we := by
  simp [requestStep, hm]

theorem requestStep_read (hm : mapped a = true) :
    requestStep (mkRequest false a d) s = acceptRead s (readValue s a) := by
  simp [requestStep, hm]

theorem requestStep_write_readOnly (hr : readOnly a = true) :
    requestStep (mkRequest true a d) s = reject s .roWrite a true := by
  have hm : mapped a = true := (mapped_iff a).mpr (.inl (readOnly_le a hr))
  simp [requestStep, hm, hr]

/-- A write to a register that is not read-only goes by its address. -/
theorem requestStep_write (hm : mapped a = true) (hr : readOnly a = false) :
    requestStep (mkRequest true a d) s =
      if a = 0x01#8 then command d s
      else if a = 0x03#8 then execWrMsg d s
      else if a = 0x06#8 then execWrKlen d s
      else if a = 0x08#8 then execWrSbox d s
      else if 0x10#8 ≤ a ∧ a ≤ 0x1F#8 then execWrKey (addrKeySlot a) d s
      else execWrPerm (addrPermEntry a) d s := by
  simp [requestStep, hm, hr]

theorem requestStep_write_of_not_fixed (hm : mapped a = true) (h : ¬ a ≤ 0x0B#8) :
    requestStep (mkRequest true a d) s =
      if 0x10#8 ≤ a ∧ a ≤ 0x1F#8 then execWrKey (addrKeySlot a) d s else execWrPerm (addrPermEntry a) d s := by
  have hr : readOnly a = false := Bool.eq_false_iff.mpr fun hr => h (readOnly_le a hr)
  simp [requestStep_write s d hm hr, ne_of_not_fixed h]

theorem requestStep_write_keyIndex (j : KeySlot) :
    requestStep (mkRequest true (keyIndex j) d) s = execWrKey j d s := by
  rw [requestStep_write_of_not_fixed s d (mapped_keyIndex j) (keyIndex_not_fixed j), if_pos (keyIndex_range j),
    addrKeySlot_keyIndex]

theorem requestStep_write_permIndex (i : PermEntry) :
    requestStep (mkRequest true (permIndex i) d) s = execWrPerm i d s := by
  rw [requestStep_write_of_not_fixed s d (mapped_permIndex i) (permIndex_not_fixed i),
    if_neg (mt And.right (permIndex_above_keys i)), addrPermEntry_permIndex]

end RequestStep

theorem exec_decodeRead_of_mapped {a : RegIndex} (hm : mapped a = true) (s : State) :
    exec (decodeRead a) s = acceptRead s (readValue s a) := by
  cases addressRow a with
  | key j => rw [decodeRead_keyIndex, readValue_keyIndex]; rfl
  | perm i => rw [decodeRead_permIndex, readValue_permIndex]; rfl
  | unmapped _ h => rw [h] at hm; cases hm
  | _ => rfl

theorem exec_decodeWrite_of_mapped {a : RegIndex} (hm : mapped a = true) (d : Word) (s : State) :
    exec (decodeWrite a d) s = requestStep (mkRequest true a d) s := by
  cases addressRow a with
  | id | status | ct | round | kcur | dbgKey | dbgMix | dbgSub => exact (requestStep_write_readOnly s d rfl).symm
  | cmd => exact (exec_decodeCommand d s).trans (requestStep_write s d hm rfl).symm
  | msg | klen | sbox => exact (requestStep_write s d hm rfl).symm
  | key j => rw [decodeWrite_keyIndex, requestStep_write_keyIndex]; rfl
  | perm i => rw [decodeWrite_permIndex, requestStep_write_permIndex]; rfl
  | unmapped _ h => rw [h] at hm; cases hm

/-- Settles O33: unmapped accesses, reads and writes, in the order of R74's checks. -/
theorem decodeTableAgreesWithAddressStep : Obligations.DecodeTableAgreesWithAddressStep := by
  intro s q
  obtain ⟨we, a, d, rfl⟩ := exists_mkRequest q
  cases hm : mapped a with
  | false => rw [decode_mkRequest_of_unmapped hm, exec_decodeUnmapped, requestStep_of_unmapped s d hm]
  | true =>
    cases we with
    | false => rw [decode_mkRequest_read, exec_decodeRead_of_mapped hm, requestStep_read s d hm]
    | true => rw [decode_mkRequest_write, exec_decodeWrite_of_mapped hm]

/-! ## No step stops -/

/-- R180: with at most 16 keys in the sequence, `NextKey` has a key to give wherever ROUND asks for one. -/
theorem execCmdRound_next {s : State} (h16 : s.klen.toNat ≤ 16) : ∃ t, execCmdRound s = .next t := by
  by_cases h0 : s.klen = 0
  · exact ⟨_, execCmdRound_of_noKeys h0⟩
  by_cases hb : bijective s.perm = true
  · by_cases ho : s.round = 0xFFFFFFFF#32
    · exact ⟨_, execCmdRound_of_roundOvf h0 hb ho⟩
    · exact ⟨_, execCmdRound_of_nextKey_some h0 hb ho (nextKey_eq h0 h16) rfl rfl rfl⟩
  · exact ⟨_, execCmdRound_of_permInvalid h0 hb⟩

/-- ROUND is the one request that can stop the machine, and R37 (a) rules it out. -/
theorem exec_next (i : Instr) {s : State} (h16 : s.klen.toNat ≤ 16) : ∃ t, exec i s = .next t := by
  cases i with
  | cmdRound => exact execCmdRound_next h16
  | wrKlen d =>
    simp only [exec, execWrKlen]
    cases klenOperand d with
    | none => exact ⟨_, rfl⟩
    | some n => exact ⟨_, rfl⟩
  | wrPerm p d =>
    simp only [exec, execWrPerm]
    cases permOperand d with
    | none => exact ⟨_, rfl⟩
    | some v => exact ⟨_, rfl⟩
  | _ => exact ⟨_, rfl⟩

/-- Settles O37, by what happens next at the port. -/
theorem stepNeverStops : Obligations.StepNeverStops := by
  intro s hs
  obtain ⟨⟨h16, -⟩, -, -⟩ := hs
  cases hi : s.inbox with
  | nil => exact ⟨_, step_nil hi⟩
  | cons e rest =>
    cases e with
    | resetEdge => exact ⟨_, step_resetEdge hi⟩
    | busy => exact ⟨_, step_busy hi⟩
    | idle => exact ⟨_, step_idle hi⟩
    | request q =>
      cases ho : s.outstanding with
      | none =>
        obtain ⟨t, ht⟩ := exec_next (decode q) (s := { s with inbox := rest }) h16
        exact ⟨t, (step_request_ready hi ho).trans ht⟩
      | some r => exact ⟨_, step_request_held hi ho⟩

/-! ## The response at the port -/

/-- Settles O4, event by event. -/
theorem outstandingRequestHoldsTheNextOne : Obligations.OutstandingRequestHoldsTheNextOne := by
  intro s r rest ho
  refine ⟨fun q hi => step_request_held hi ho, fun hi => ?_, fun hi => ?_, step_busy⟩
  · rw [step_idle hi, answer_some ho]
  · rw [step_nil hi, answer_some ho, ← hi]

/-- But for a busy cycle and a reset edge, a step with a response outstanding delivers it (R71 (c), (d)). -/
theorem step_delivers {s : State} {r : Response} (ho : s.outstanding = some r) (hbusy : s.inbox.head? ≠ some .busy)
    (hreset : s.inbox.head? ≠ some .resetEdge) : ∃ rest, step s = .next (answer s rest) := by
  cases hi : s.inbox with
  | nil => exact ⟨_, step_nil hi⟩
  | cons e rest =>
    cases e with
    | resetEdge => simp [hi] at hreset
    | busy => simp [hi] at hbusy
    | idle => exact ⟨_, step_idle hi⟩
    | request q => exact ⟨s.inbox, (step_request_held hi ho).trans (by rw [answer_some ho])⟩

/-- Busy cycles do nothing but pass (R254). -/
theorem run_busy (n k : Nat) {s : State} {rest : List PortEvent} (hi : s.inbox = List.replicate n .busy ++ rest) :
    core.run (n + k) s = core.run k { s with inbox := rest } := by
  induction n generalizing s with
  | zero => rw [Nat.zero_add, ← (show s.inbox = rest from hi)]
  | succ n ih =>
    rw [Nat.succ_add, run_succ_of_step _ (step_busy (hi.trans (by rw [List.replicate_succ, List.cons_append]))),
      ih rfl]

/-- Settles O5: the transfer leaves a response on its way, the busy cycles pass, and the next step delivers it. -/
theorem transferredRequestIsAnsweredOnce : Obligations.TransferredRequestIsAnsweredOnce := by
  intro s q n rest hs ho hi hbusy hreset
  obtain ⟨⟨h16, -⟩, -, -⟩ := hs
  obtain ⟨u, hu⟩ := exec_next (decode q) (s := { s with inbox := List.replicate n .busy ++ rest }) h16
  obtain ⟨hinbox, hreceived⟩ := exec_port_frame hu
  obtain ⟨r, hr⟩ := exec_outstanding hu
  obtain ⟨rest', hd⟩ := step_delivers (s := { u with inbox := rest }) hr hbusy hreset
  refine ⟨u, r, answer { u with inbox := rest } rest', hu, hr, ?_, ?_, answer_outstanding _ _⟩
  · rw [run_succ_of_step _ ((step_request_ready hi ho).trans hu), run_busy n 1 hinbox, run_succ_of_step _ hd,
      run_zero]
  · simp [hr, hreceived]

end Sys2Proof.Machine

/-! Proofs of the statements of the family 40_datapath.md: the bijectivity check, the permutation and substitution units,
the round function. -/

namespace Sys2Proof.Machine

open Claims

/-! ## The bijectivity check -/

/-- A table as the map of source positions that it describes (R12, R101): position `i` goes to position `t(i)`. -/
def entryPos (t : PermTable) (i : Fin 64) : Fin 64 := ⟨(t[i]).toNat, (t[i]).isLt⟩

theorem entryPos_eq_iff (t : PermTable) (i j : Fin 64) : entryPos t i = entryPos t j ↔ t[i] = t[j] := by
  simp only [entryPos, Fin.mk.injEq, BitVec.toNat_inj]

theorem bijective_iff_entryPos_injective (t : PermTable) :
    bijective t = true ↔ Function.Injective (entryPos t) := by
  simp only [bijective_iff_injective, Function.Injective, entryPos_eq_iff]

theorem bijective_iff_entryPos_bijective (t : PermTable) :
    bijective t = true ↔ Function.Bijective (entryPos t) :=
  (bijective_iff_entryPos_injective t).trans Finite.injective_iff_bijective

theorem bijective_iff_entryPos_surjective (t : PermTable) :
    bijective t = true ↔ Function.Surjective (entryPos t) :=
  (bijective_iff_entryPos_injective t).trans Finite.injective_iff_surjective

/-- Settles O26: on a finite set of positions, a map is one to one exactly if it is onto. -/
theorem bijectiveMeansDistinctAndOnto : Obligations.BijectiveMeansDistinctAndOnto := by
  refine fun t => ⟨bijective_iff_injective t, exists_entry t, fun honto => ?_⟩
  refine (bijective_iff_entryPos_surjective t).mpr fun p => ?_
  obtain ⟨i, hi⟩ := honto p p.isLt
  exact ⟨i, Fin.ext hi⟩

/-! ## The permutation unit -/

/-- R101: `permute t ht x` is the one word that has source bit `i` of `x` at source position `t(i)`. -/
theorem eq_permute_iff (t : PermTable) (ht : bijective t = true) (x y : Word) :
    y = permute t ht x ↔ ∀ i : Fin 64, y.getLsbD (63 - (t[i]).toNat) = x.getLsbD (63 - i.val) := by
  constructor
  · rintro rfl
    exact permute_getLsbD t ht x
  · exact eq_permute_of_getLsbD t ht x y

theorem permute_zero (t : PermTable) (ht : bijective t = true) : permute t ht 0 = 0 :=
  ((eq_permute_iff t ht 0 0).mpr fun i => by simp).symm

theorem permute_allOnes (t : PermTable) (ht : bijective t = true) :
    permute t ht (BitVec.allOnes 64) = BitVec.allOnes 64 :=
  ((eq_permute_iff t ht _ _).mpr fun i => by simp only [BitVec.getLsbD_allOnes, Nat.sub_lt_succ]).symm

theorem permute_identityPerm (ht : bijective identityPerm = true) (x : Word) : permute identityPerm ht x = x :=
  ((eq_permute_iff identityPerm ht x x).mpr fun i => by rw [identityPerm_toNat]).symm

/-- Settles O27. -/
theorem permuteScattersEverySourceBit : Obligations.PermuteScattersEverySourceBit :=
  ⟨eq_permute_iff, fun t ht => ⟨permute_zero t ht, permute_allOnes t ht⟩, permute_identityPerm⟩

/-- R102 (b). -/
theorem permute_xor (t : PermTable) (ht : bijective t = true) (a b : Word) :
    permute t ht (a ^^^ b) = permute t ht a ^^^ permute t ht b :=
  ((eq_permute_iff t ht _ _).mpr fun i => by simp only [BitVec.getLsbD_xor, permute_getLsbD]).symm

theorem weight_eq_sum_range (x : Word) : weight x = ∑ k ∈ Finset.range 64, (x.getLsbD k).toNat := by
  have hcount : weight x = Nat.count (fun k => x.getLsbD k = true) 64 := by simp [weight, Nat.count]
  rw [hcount, Nat.count_eq_card_filter_range, Finset.card_filter]
  exact Finset.sum_congr rfl fun k _ => by cases x.getLsbD k <;> rfl

/-- The weight as a sum over the source positions, which a bijective table only reorders. -/
theorem weight_eq_sum (x : Word) : weight x = ∑ i : Fin 64, (x.getLsbD (63 - i.val)).toNat := by
  rw [weight_eq_sum_range, ← Finset.sum_range_reflect]
  exact Finset.sum_range fun k => (x.getLsbD (63 - k)).toNat

/-- R102 (c). -/
theorem weight_permute (t : PermTable) (ht : bijective t = true) (x : Word) : weight (permute t ht x) = weight x := by
  have hbij := (bijective_iff_entryPos_bijective t).mp ht
  calc weight (permute t ht x)
    _ = ∑ p : Fin 64, ((permute t ht x).getLsbD (63 - p.val)).toNat := weight_eq_sum _
    _ = ∑ i : Fin 64, ((permute t ht x).getLsbD (63 - (entryPos t i).val)).toNat :=
      (hbij.sum_comp fun p => ((permute t ht x).getLsbD (63 - p.val)).toNat).symm
    _ = ∑ i : Fin 64, (x.getLsbD (63 - i.val)).toNat := by simp only [entryPos, permute_getLsbD]
    _ = weight x := (weight_eq_sum x).symm

/-- R102 (a): the unit as a gather, by the inverse table `u`. -/
theorem permute_getLsbD_gather (t u : PermTable) (ht : bijective t = true)
    (hinv : ∀ i : Fin 64, u[(t[i]).toNat]? = some (BitVec.ofNat 6 i.val)) (x : Word) (j : Fin 64) :
    (permute t ht x).getLsbD (63 - j.val) = x.getLsbD (63 - (u[j]).toNat) := by
  obtain ⟨i, hi⟩ := exists_entry t ht j.val j.isLt
  have huj : (u[j]).toNat = i.val := by
    have h := hinv i
    rw [hi, Vector.getElem?_eq_getElem j.isLt, Option.some.injEq] at h
    simp [h]
  rw [huj, ← hi, permute_getLsbD]

/-- Settles O28: the round trip is the gather form read from right to left, and the rest are the laws above. -/
theorem permutationUnitLaws : Obligations.PermutationUnitLaws := by
  intro t u ht hu hinv
  have hgather := permute_getLsbD_gather t u ht hinv
  refine ⟨hgather, permute_xor t ht, weight_permute t ht, fun x => ?_, fun x y i hxy => ?_⟩
  · exact ((eq_permute_iff u hu _ x).mpr fun j => (hgather x j).symm).symm
  · rw [permute_getLsbD, permute_getLsbD, hxy]

/-! ## The substitution unit -/

/-- R104: `substitute sbox x` is the one word whose every lane is the S-box entry of the lane of `x`. -/
theorem eq_substitute_iff (sbox x y : Word) :
    y = substitute sbox x ↔ ∀ n < 16, nib y n = sboxEntry sbox (nib x n) := by
  constructor
  · rintro rfl
    exact substitute_nib sbox x
  · exact fun h => word_eq_of_nib _ _ fun n hn => (h n hn).trans (substitute_nib sbox x n hn).symm

theorem sboxEntry_identity : ∀ v : BitVec 4, sboxEntry 0x0123456789ABCDEF#64 v = v := by decide

theorem substitute_identity (x : Word) : substitute 0x0123456789ABCDEF#64 x = x :=
  ((eq_substitute_iff _ x x).mpr fun n _ => (sboxEntry_identity (nib x n)).symm).symm

/-- R104: an S-box with one value in all its entries gives that value in every lane. -/
theorem substitute_constant (c : BitVec 4) (sbox x : Word) (hc : ∀ n < 16, nib sbox n = c) :
    substitute sbox x = sbox :=
  ((eq_substitute_iff sbox x sbox).mpr fun n hn => (hc n hn).trans (hc _ (nib x n).isLt).symm).symm

/-- Settles O29. -/
theorem substituteMapsEveryLane : Obligations.SubstituteMapsEveryLane :=
  ⟨eq_substitute_iff, substitute_identity, substitute_constant⟩

/-! ## The round function -/

theorem keyMix_self (x : Word) : keyMix x x = 0 := BitVec.xor_self

theorem keyMix_zero (x : Word) : keyMix x 0 = x := BitVec.xor_zero

theorem roundF_identity (ht : bijective identityPerm = true) (x k : Word) :
    roundF identityPerm ht 0x0123456789ABCDEF#64 x k = x ^^^ k := by
  rw [roundF, permute_identityPerm, substitute_identity, keyMix]

/-- Settles O30. -/
theorem roundFunctionWithIdentityTablesIsXor : Obligations.RoundFunctionWithIdentityTablesIsXor :=
  ⟨fun _ _ _ _ _ => rfl, fun x _ => ⟨rfl, keyMix_self x, keyMix_zero x⟩, roundF_identity⟩

end Sys2Proof.Machine

/-! Proofs of the statements of the family 41_register_access.md: the reads, the writes, and the accesses that are
always rejected. -/

namespace Sys2Proof.Machine

open Claims

/-! ## The indices of the key slots and the permutation entries as numbers -/

theorem ofNat_keySlot (j : KeySlot) : BitVec.ofNat 8 (0x10 + j.toNat) = keyIndex j := by
  revert j; decide

theorem ofNat_permEntry (i : PermEntry) : BitVec.ofNat 8 (0x40 + i.toNat) = permIndex i := by
  revert i; decide

/-! ## Rejections -/

/-- Taking the exception (R213) is what the statements say of a rejection. -/
theorem rejectedWith_reject (s : State) (c : Cause) (a : RegIndex) (w : Bool) :
    RejectedWith s (reject s c a w) c.code a w := by
  constructor
  · intro hclear
    rw [reject, recordError_of_clear hclear]
    rfl
  · intro herr
    rw [reject, recordError_of_err herr]
    rfl

/-- Settles O16: the three rows by their meaning, and a request of an unmapped index as it decodes to one. -/
theorem unmappedAccessesAreRejected : Obligations.UnmappedAccessesAreRejected := by
  intro s we a
  have hreject : RejectedWith s (reject s .badAddr a we) 1 a we := rejectedWith_reject s .badAddr a we
  refine ⟨⟨hreject, hreject, hreject⟩, fun d hm => ?_⟩
  rwa [decode_mkRequest_of_unmapped hm, exec_decodeUnmapped]

/-- Settles O15: each of the eight rows rejects its own index. -/
theorem readOnlyRegisterWritesAreRejected : Obligations.ReadOnlyRegisterWritesAreRejected := by
  intro s d
  have hdecode (a : RegIndex) : decode (mkRequest true a d) = decodeWrite a d := decode_mkRequest_write a d
  have hreject (a : RegIndex) : RejectedWith s (reject s .roWrite a true) 2 a true :=
    rejectedWith_reject s .roWrite a true
  exact ⟨hdecode _, hdecode _, hdecode _, hdecode _, hdecode _, hdecode _, hdecode _, hdecode _,
    hreject _, hreject _, hreject _, hreject _, hreject _, hreject _, hreject _, hreject _⟩

/-! ## Writes -/

/-- Settles O10: the decoder's row, and the write's effect as `exec` performs it. -/
theorem msgWriteSetsMessageAndResetsRoundState : Obligations.MsgWriteSetsMessageAndResetsRoundState :=
  fun _ _ => ⟨decode_mkRequest_write _ _, rfl⟩

/-- Settles O12: the decoder's row, and a write with no check to fail. -/
theorem sboxWriteTakesEveryValue : Obligations.SboxWriteTakesEveryValue :=
  fun _ _ => ⟨decode_mkRequest_write _ _, rfl⟩

/-- R151, rejected. -/
theorem exec_wrKlen_of_no_operand {d : Word} (h : klenOperand d = none) (s : State) :
    exec (.wrKlen d) s = reject s .badKlen 0x06#8 true := by
  simp [exec, execWrKlen, h]

/-- Settles O11: a legal length is an operand and keeps its value in KLEN, and any other is none. -/
theorem klenWriteCommitsLegalLengthOnly : Obligations.KlenWriteCommitsLegalLengthOnly := by
  refine fun s d => ⟨decode_mkRequest_write _ _, fun h1 h16 => ?_, fun hbad => ?_⟩
  · have hn : klenOperand d = some (d.extractLsb' 0 5) := klenOperand_eq_some.mpr ⟨h1, h16, rfl⟩
    exact ⟨d.extractLsb' 0 5, klenOperand_toNat hn, exec_wrKlen_of_operand hn s⟩
  · rw [exec_wrKlen_of_no_operand (klenOperand_eq_none.mpr hbad)]
    exact rejectedWith_reject s .badKlen 0x06#8 true

theorem setKey_keys_getElem (s : State) (j : KeySlot) (d : Word) (n : Fin 16) :
    (s.setKey j d).keys[n] = if n.val = j.toNat then d else s.keys[n] := by
  simp [Vector.getElem_set, eq_comm]

theorem setPerm_perm_getElem (s : State) (i v : PermEntry) (n : Fin 64) :
    (s.setPerm i v).perm[n] = if n.val = i.toNat then v else s.perm[n] := by
  simp [Vector.getElem_set, eq_comm]

/-- Settles O13: the key store after the write is the one that `setKey` leaves. -/
theorem keyWriteChangesItsSlotOnly : Obligations.KeyWriteChangesItsSlotOnly := by
  intro s j d
  refine ⟨?_, (s.setKey j d).keys, rfl, setKey_keys_getElem s j d⟩
  rw [ofNat_keySlot, decode_mkRequest_write, decodeWrite_keyIndex]

theorem permOperand_eq_none {d : Word} : permOperand d = none ↔ d.extractLsb' 6 58 ≠ 0#58 := by
  rw [permOperand, ite_eq_left_iff]
  simp

/-- R154, accepted. -/
theorem exec_wrPerm_of_operand {d : Word} {v : PermEntry} (h : permOperand d = some v) (i : PermEntry) (s : State) :
    exec (.wrPerm i d) s = .next ((s.setPerm i v).respond false 0) := by
  simp [exec, execWrPerm, acceptWrite, h]

/-- R154, rejected. -/
theorem exec_wrPerm_of_no_operand {d : Word} (h : permOperand d = none) (i : PermEntry) (s : State) :
    exec (.wrPerm i d) s = reject s .rsvdBits (permIndex i) true := by
  simp [exec, execWrPerm, h]

/-- Settles O14: data with bits [63:6] clear is an operand, and any other is none. -/
theorem permWriteChangesItsEntryOnly : Obligations.PermWriteChangesItsEntryOnly := by
  intro s i d
  rw [ofNat_permEntry]
  refine ⟨(decode_mkRequest_write _ _).trans (decodeWrite_permIndex i d), fun hlow => ?_, fun hhigh => ?_⟩
  · have hv : permOperand d = some (d.extractLsb' 0 6) := permOperand_eq_some.mpr ⟨hlow, rfl⟩
    exact ⟨_, exec_wrPerm_of_operand hv i s, setPerm_perm_getElem s i _⟩
  · rw [exec_wrPerm_of_no_operand (permOperand_eq_none.mpr hhigh)]
    exact rejectedWith_reject s .rsvdBits (permIndex i) true

/-! ## Reads -/

/-- Settles O9: the read's row of the address map responds with the register that `readValue` names there. -/
theorem mappedReadHasNoSideEffect : Obligations.MappedReadHasNoSideEffect := by
  intro s a d hm
  rw [decode_mkRequest_read, exec_decodeRead_of_mapped hm]
  rfl

/-- Zero-extension (R130) keeps the number. -/
theorem acceptRead_setWidth {w : Nat} (s : State) (v : BitVec w) :
    acceptRead s (v.setWidth 64) = .next { s with outstanding := okRead (BitVec.ofNat 64 v.toNat) } := by
  rw [BitVec.ofNat_toNat]
  rfl

/-- Settles O6: the three registers narrower than a word are zero-extended. -/
theorem controlRegisterReadsReturnTheirRegister : Obligations.ControlRegisterReadsReturnTheirRegister := by
  refine ⟨fun d => ?_, fun s => ⟨rfl, rfl, rfl, rfl, ?_, ?_, ?_⟩⟩
  · have hdecode (a : RegIndex) : decode (mkRequest false a d) = decodeRead a := decode_mkRequest_read a d
    exact ⟨hdecode _, hdecode _, hdecode _, hdecode _, hdecode _, hdecode _, hdecode _⟩
  · exact acceptRead_setWidth s s.round
  · exact acceptRead_setWidth s s.klen
  · exact acceptRead_setWidth s s.kcur

theorem keys_getElem?_toNat (s : State) (j : KeySlot) : s.keys[j.toNat]? = some (s.key j) :=
  Vector.getElem?_eq_getElem _

theorem perm_getElem?_toNat (s : State) (i : PermEntry) : s.perm[i.toNat]? = some (s.permEntry i) :=
  Vector.getElem?_eq_getElem _

/-- Settles O7: slots and entries by the index patterns, and the store always has what is read. -/
theorem tableKeyAndDebugReadsReturnTheirRegister : Obligations.TableKeyAndDebugReadsReturnTheirRegister := by
  refine ⟨fun d => ?_, fun s => ⟨rfl, rfl, rfl, rfl, fun j => ?_, fun i => ?_⟩⟩
  · have hdecode (a : RegIndex) : decode (mkRequest false a d) = decodeRead a := decode_mkRequest_read a d
    refine ⟨hdecode _, hdecode _, hdecode _, hdecode _, fun j => ?_, fun i => ?_⟩
    · rw [ofNat_keySlot, hdecode, decodeRead_keyIndex]
    · rw [ofNat_permEntry, hdecode, decodeRead_permIndex]
  · exact ⟨s.key j, keys_getElem?_toNat s j, rfl⟩
  · exact ⟨s.permEntry i, perm_getElem?_toNat s i, acceptRead_setWidth s (s.permEntry i)⟩

/-! ## STATUS

STATUS is an `or` of fields at places that do not overlap (R23): a part of the word is the one field that lies there, and
0 where none does. -/

section Field

variable {w p : Nat} (v : BitVec w)

theorem fieldAt_getLsbD (k : Nat) :
    (fieldAt p v).getLsbD k = (decide (k < 64) && decide (p ≤ k) && v.getLsbD (k - p)) := by
  rw [fieldAt, BitVec.getLsbD_shiftLeft, BitVec.getLsbD_setWidth]
  by_cases h64 : k < 64
  · have hsub : k - p < 64 := by omega
    simp [h64, hsub, ← decide_not]
  · simp [h64]

theorem fieldAt_extract_self (h : p + w ≤ 64) : (fieldAt p v).extractLsb' p w = v := by
  refine BitVec.eq_of_getLsbD_eq fun k hk => ?_
  have h64 : p + k < 64 := by omega
  simp only [BitVec.getLsbD_extractLsb', fieldAt_getLsbD]
  simp [hk, h64]

theorem fieldAt_extract_above {q n : Nat} (h : p + w ≤ q) : (fieldAt p v).extractLsb' q n = 0 := by
  refine BitVec.eq_of_getLsbD_eq fun k _ => ?_
  simp [fieldAt_getLsbD, v.getLsbD_of_ge (q + k - p) (by omega)]

theorem fieldAt_extract_below {q n : Nat} (h : q + n ≤ p) : (fieldAt p v).extractLsb' q n = 0 := by
  refine BitVec.eq_of_getLsbD_eq fun k hk => ?_
  have hlow : ¬ p ≤ q + k := by omega
  simp [fieldAt_getLsbD, hlow]

end Field

section Status

variable (s : State)

theorem statusWord_extract (q n : Nat) : s.statusWord.extractLsb' q n =
    (fieldAt 0 (BitVec.ofBool s.err)).extractLsb' q n ||| (fieldAt 1 (BitVec.ofBool s.pvalid)).extractLsb' q n |||
      (fieldAt 2 (BitVec.ofBool s.kvalid)).extractLsb' q n ||| (fieldAt 8 s.errCode).extractLsb' q n |||
      (fieldAt 16 s.errAddr).extractLsb' q n ||| (fieldAt 24 (BitVec.ofBool s.errWr)).extractLsb' q n := by
  simp only [State.statusWord, BitVec.extractLsb'_or]

theorem statusWord_errCode : s.statusWord.extractLsb' 8 4 = s.errCode := by
  simp [statusWord_extract, fieldAt_extract_self, fieldAt_extract_above, fieldAt_extract_below]

theorem statusWord_errAddr : s.statusWord.extractLsb' 16 8 = s.errAddr := by
  simp [statusWord_extract, fieldAt_extract_self, fieldAt_extract_above, fieldAt_extract_below]

/-- The reserved places of R23 lie below ERRCODE, between two fields, and above ERRWR. -/
theorem statusWord_reserved : s.statusWord.extractLsb' 3 5 = 0#5 ∧ s.statusWord.extractLsb' 12 4 = 0#4 ∧
    s.statusWord.extractLsb' 25 39 = 0#39 := by
  simp [statusWord_extract, fieldAt_extract_above, fieldAt_extract_below]

theorem statusWord_flags : s.statusWord.getLsbD 0 = s.err ∧ s.statusWord.getLsbD 1 = s.pvalid ∧
    s.statusWord.getLsbD 2 = s.kvalid ∧ s.statusWord.getLsbD 24 = s.errWr := by
  simp only [State.statusWord, BitVec.getLsbD_or, fieldAt_getLsbD]
  simp

theorem pvalid_iff : s.pvalid = true ↔ DistinctEntries s.perm := bijective_iff_injective s.perm

theorem kvalid_iff : s.kvalid = true ↔ s.klen ≠ 0 := bne_iff_ne

end Status

/-- Settles O8: STATUS field by field, its two live bits by what they evaluate (R32). -/
theorem statusReadShowsRecordAndLiveBits : Obligations.StatusReadShowsRecordAndLiveBits := by
  refine ⟨fun d => decode_mkRequest_read _ d, fun s => ⟨s.statusWord, rfl, ?_⟩⟩
  obtain ⟨herr, hpvalid, hkvalid, herrWr⟩ := statusWord_flags s
  obtain ⟨hlow, hmid, hhigh⟩ := statusWord_reserved s
  rw [hpvalid, hkvalid]
  exact ⟨herr, pvalid_iff s, kvalid_iff s, hlow, statusWord_errCode s, hmid, statusWord_errAddr s, herrWr, hhigh⟩

end Sys2Proof.Machine

/-! Proofs of the statements of the family 42_commands.md: the commands, and the cipher words a session's rounds compute. -/

namespace Sys2Proof.Machine

open Claims

/-! ## RESET, CLR_ERR and the illegal words -/

/-- Settles O21: the decoder on the command word, and the command's effect as `exec` performs it. -/
theorem resetCommandResetsRoundStateOnly : Obligations.ResetCommandResetsRoundStateOnly :=
  ⟨by decide, fun _ => rfl⟩

/-- Settles O22: the decoder on the command word, and the command's effect as `exec` performs it. -/
theorem clrErrClearsErrorRecordOnly : Obligations.ClrErrClearsErrorRecordOnly :=
  ⟨by decide, fun _ => rfl⟩

/-- The words of R193, by their fields RSVD and OP (R76), are those of the illegal row (R83 row 18). -/
theorem cmdIllegal_wf_iff (d : Word) : (Instr.cmdIllegal d).wf = true ↔
    d.extractLsb' 8 56 ≠ 0#56 ∨ (d.extractLsb' 0 8 ≠ 1#8 ∧ d.extractLsb' 0 8 ≠ 2#8 ∧ d.extractLsb' 0 8 ≠ 3#8) := by
  have hround : d = 1#64 ↔ _ := commandWord_eq_iff d 0x01#8
  have hreset : d = 2#64 ↔ _ := commandWord_eq_iff d 0x02#8
  have hclr : d = 3#64 ↔ _ := commandWord_eq_iff d 0x03#8
  simp only [Instr.wf, Bool.and_eq_true, bne_iff_ne, ne_eq, hround, hreset, hclr]
  tauto

/-- Settles O17: the illegal row rejects, and every word of R193 decodes to it. -/
theorem illegalCommandWordsAreRejected : Obligations.IllegalCommandWordsAreRejected := by
  refine fun s d => ⟨rejectedWith_reject s .illegalCmd 0x01#8 true, fun h => ?_⟩
  rw [decode_mkRequest_write]
  exact decodeCommand_of_illegal ((cmdIllegal_wf_iff d).mpr h)

/-! ## ROUND -/

/-- The command word 1 written to CMD (R76). -/
theorem decode_roundWord : decode 0x1010000000000000001#73 = .cmdRound := by decide

/-- R181 step 3 tests the counter after the count. -/
theorem inputOf_eq_ite (s : State) : inputOf s = if s.round + 1 = 1 then s.msg else s.ct := by
  simp [inputOf]

theorem slotOf_lt {s : State} (h0 : s.klen ≠ 0) : slotOf s < s.klen.toNat := nextSlot_toNat s ▸ nextSlot_lt h0

/-- `NextKey` (R180) takes the key of the slot, where the store has it, and moves the cursor past that slot. -/
theorem nextKey_eq_some {s : State} {k : Word} {u : BitVec 5} :
    s.nextKey = some (k, u) ↔ s.keys[slotOf s]? = some k ∧ u = BitVec.ofNat 5 (slotOf s + 1) := by
  have hu : s.nextSlot + 1 = BitVec.ofNat 5 (slotOf s + 1) := by
    rw [← nextSlot_toNat]; bv_omega
  by_cases h : s.nextSlot.toNat < 16
  · have hk : s.keys[slotOf s]? = some s.keys[s.nextSlot.toNat] := by
      rw [← nextSlot_toNat]; exact Vector.getElem?_eq_getElem h
    rw [State.nextKey, dif_pos h, hk, ← hu]
    simp [eq_comm]
  · have hk : s.keys[slotOf s]? = none := by
      rw [← nextSlot_toNat]; exact Vector.getElem?_eq_none (Nat.le_of_not_lt h)
    rw [State.nextKey, dif_neg h, hk]
    simp

/-- Settles O23: the checks in the order of R181, and the round. -/
theorem roundChecksThenComputes : Obligations.RoundChecksThenComputes := by
  refine ⟨decode_roundWord, fun s => ⟨fun h0 => ?_, fun h0 hd => ?_, fun h0 hd ho => ?_, ?_⟩⟩
  · rw [exec, execCmdRound_of_noKeys h0]
    exact rejectedWith_reject s .noKeys 0x01#8 true
  · rw [exec, execCmdRound_of_permInvalid h0 (mt (pvalid_iff s).mp hd)]
    exact rejectedWith_reject s .permInvalid 0x01#8 true
  · rw [exec, execCmdRound_of_roundOvf h0 ((pvalid_iff s).mpr hd) ho]
    exact rejectedWith_reject s .roundOvf 0x01#8 true
  · intro hb k m b h0 ho hk hm hsub
    exact execCmdRound_of_nextKey_some h0 hb ho (nextKey_eq_some.mpr ⟨hk, rfl⟩) (inputOf_eq_ite s) hm hsub

/-- Settles O25: of all that a request can come to, ROUND is rejected or counts by one below the limit of R183. -/
theorem roundCounterNeverWraps : Obligations.RoundCounterNeverWraps := by
  intro s t h
  cases exec_effect h with
  | rejected => exact .inr ⟨rfl, by simp⟩
  | round _ _ _ _ _ ho _ => exact .inl ⟨rfl, round_succ_toNat ho⟩
  | read _ hwe => simp [encode] at hwe
  | msg _ e | klen _ _ e | sbox _ e | key _ _ e | perm _ _ _ e | reset e | clrErr e => cases e

/-! ## The loop invariant of R182

`AtRound s r` says of a state what a session has come to after `r` rounds, in the terms that the next round reads. One round
takes it to `r + 1`, and it gives CT = X_r. -/

/-- The state elements that X_r of R182 depends on are the same in both states. -/
def SameTables (s t : State) : Prop :=
  t.msg = s.msg ∧ t.klen = s.klen ∧ t.sbox = s.sbox ∧ t.keys = s.keys ∧ t.perm = s.perm

theorem SameTables.trans {s t u : State} (h₁ : SameTables s t) (h₂ : SameTables t u) : SameTables s u := by
  obtain ⟨hmsg, hklen, hsbox, hkeys, hperm⟩ := h₁
  rwa [SameTables, hmsg, hklen, hsbox, hkeys, hperm] at h₂

theorem sameTables_commitRound (s : State) (k m b c : Word) (n : BitVec 32) (u : BitVec 5) :
    SameTables s (s.commitRound k m b c n u) := ⟨rfl, rfl, rfl, rfl, rfl⟩

theorem cipherWord_congr {s t : State} (h : SameTables s t) (hs : bijective s.perm = true)
    (ht : bijective t.perm = true) (r : Nat) : cipherWord t ht r = cipherWord s hs r := by
  obtain ⟨hmsg, hklen, hsbox, hkeys, hperm⟩ := h
  induction r with
  | zero => exact hmsg
  | succ r ih => simp only [cipherWord, ih, hklen, hsbox, hkeys, hperm]

/-- `r` rounds have been done: the next one takes the key of slot `r mod KLEN` and its input is X_r. -/
structure AtRound (s : State) (r : Nat) : Prop where
  round : s.round.toNat = r
  slot : slotOf s = r % s.klen.toNat
  input (hb : bijective s.perm = true) : inputOf s = cipherWord s hb r

theorem AtRound.congr {s t : State} {r : Nat} (hs : AtRound s r) (h : SameTables s t) (hct : t.ct = s.ct)
    (hround : t.round = s.round) (hkcur : t.kcur = s.kcur) : AtRound t r := by
  obtain ⟨hmsg, hklen, -, -, hperm⟩ := id h
  refine ⟨hround ▸ hs.round, ?_, fun hb => ?_⟩
  · rw [slotOf, hkcur, hklen, ← hs.slot, slotOf]
  · rw [cipherWord_congr h (hperm ▸ hb), ← hs.input, inputOf, hround, hmsg, hct, inputOf]

/-- No round has been done in a fresh session, whatever CT holds. -/
theorem atRound_zero {s : State} (hround : s.round = 0) (hkcur : s.kcur = 0) : AtRound s 0 :=
  ⟨by simp [hround], by simp [slotOf, hkcur], fun _ => if_pos hround⟩

/-- R37 (a), (b) and (e) put the cursor where R182 needs it. -/
theorem atRound_of_sessionOk {s : State} (hs : SessionOk s) (hc : CtIsCipherWord s) (h0 : s.klen ≠ 0) :
    AtRound s s.round.toNat := by
  refine ⟨rfl, nextSlot_toNat s ▸ nextSlot_eq_round_mod hs h0, fun hb => ?_⟩
  by_cases hr : s.round = 0
  · rw [inputOf, if_pos hr, hr]; rfl
  · rw [inputOf, if_neg hr, hc hb hr]

/-- After a round the input of the next one is CT (R181 step 3). -/
theorem AtRound.ctIsCipherWord {s : State} {r : Nat} (hs : AtRound s r) : CtIsCipherWord s := by
  intro hb hr
  rw [hs.round, ← hs.input, inputOf, if_neg hr]

/-- The next round's input and key are those that R182 computes X_(r+1) from. -/
theorem AtRound.roundF_eq {s : State} {r : Nat} {k : Word} (hs : AtRound s r) (hk : s.keys[slotOf s]? = some k)
    (hb : bijective s.perm = true) : roundF s.perm hb s.sbox (inputOf s) k = cipherWord s hb (r + 1) := by
  have hkey : s.keys.toList.getD (r % s.klen.toNat) 0 = k := by
    rw [← hs.slot]; simp [hk]
  rw [cipherWord, hkey, hs.input hb]

/-- The cursor `c` after round `r + 1`, wrapped as R180 wraps it, counts the rounds modulo `n`. -/
theorem succ_mod_eq_ite {r n c : Nat} (hc : c = r % n + 1) (hn : 0 < n) :
    (if c ≥ n then 0 else c) = (r + 1) % n := by
  have hlt := Nat.mod_lt r hn
  rw [← Nat.mod_add_mod, ← hc]
  split
  · rw [show c = n by omega, Nat.mod_self]
  · rw [Nat.mod_eq_of_lt (by omega)]

/-- One round takes the invariant from `r` to `r + 1`. -/
theorem AtRound.commitRound {s : State} {r : Nat} {k m b : Word} {u : BitVec 5} (hs : AtRound s r) (h0 : s.klen ≠ 0)
    (h16 : s.klen.toNat ≤ 16) (hb : bijective s.perm = true) (ho : s.round ≠ 0xFFFFFFFF#32)
    (hk : s.nextKey = some (k, u)) (hm : m = keyMix (inputOf s) k) (hsub : b = substitute s.sbox m) :
    AtRound (s.commitRound k m b (permute s.perm hb b) (s.round + 1) u) (r + 1) := by
  obtain ⟨hkey, rfl⟩ := nextKey_eq_some.mp hk
  have hround : (s.round + 1).toNat = r + 1 := hs.round ▸ round_succ_toNat ho
  refine ⟨hround, ?_, fun hb' => ?_⟩
  · have hslot := slotOf_lt h0
    have hu : (BitVec.ofNat 5 (slotOf s + 1)).toNat = r % s.klen.toNat + 1 := by
      rw [← hs.slot, BitVec.toNat_ofNat, Nat.mod_eq_of_lt (by omega)]
    exact succ_mod_eq_ite hu (Nat.zero_lt_of_lt hslot)
  · have hne : s.round + 1 ≠ 0 := fun e => Nat.succ_ne_zero r (hround.symm.trans (congrArg BitVec.toNat e))
    subst hm hsub
    rw [cipherWord_congr (sameTables_commitRound ..) hb, ← hs.roundF_eq hkey hb, inputOf]
    exact if_neg hne

/-! ## CT over a step -/

/-- The writes that R251 keeps out of a session. -/
def WritesTable (i : Instr) : Prop := (∃ p d, i = .wrPerm p d) ∨ (∃ d, i = .wrSbox d) ∨ ∃ j d, i = .wrKey j d

theorem ctIsCipherWord_congr {s t : State} (hs : CtIsCipherWord s) (h : SameTables s t) (hct : t.ct = s.ct)
    (hround : t.round = s.round) : CtIsCipherWord t := by
  obtain ⟨-, -, -, -, hperm⟩ := id h
  intro hb hr
  rw [hct, hround, cipherWord_congr h (hperm ▸ hb)]
  exact hs _ (hround ▸ hr)

theorem ctIsCipherWord_of_fresh {s : State} (h : s.round = 0) : CtIsCipherWord s := fun _ hr => absurd h hr

theorem exec_ctIsCipherWord {i : Instr} {s t : State} (h : exec i s = .next t) (hs : SessionOk s)
    (hc : CtIsCipherWord s) (hi : ¬ WritesTable i) : CtIsCipherWord t := by
  cases exec_effect h with
  | read | rejected | clrErr => exact ctIsCipherWord_congr hc (by simp [SameTables]) (by simp) (by simp)
  | msg | klen | reset => exact ctIsCipherWord_of_fresh rfl
  | perm p d _ e => exact absurd (.inl ⟨p, d, e⟩) hi
  | sbox d e => exact absurd (.inr (.inl ⟨d, e⟩)) hi
  | key j d e => exact absurd (.inr (.inr ⟨j, d, e⟩)) hi
  | round _ hb k u h0 ho hk =>
    have hround := (atRound_of_sessionOk hs hc h0).commitRound h0 hs.1 hb ho hk rfl rfl
    rw [inputOf_eq_ite] at hround
    exact ctIsCipherWord_congr hround.ctIsCipherWord ⟨rfl, rfl, rfl, rfl, rfl⟩ rfl rfl

/-- Settles O45, by the four things a step can do. -/
theorem sessionKeepsCtTheCipherWord : Obligations.SessionKeepsCtTheCipherWord := by
  intro s t hinv hc htable h
  obtain ⟨hs, -, -⟩ := hinv
  rcases step_next_cases h with ⟨rest, -, rfl⟩ | ⟨rest, rfl⟩ | ⟨rest, rfl⟩ | ⟨q, rest, hi, ho, he⟩
  · exact ctIsCipherWord_of_fresh rfl
  · exact ctIsCipherWord_congr hc ⟨rfl, rfl, rfl, rfl, rfl⟩ rfl rfl
  · exact ctIsCipherWord_congr hc (by simp [SameTables]) (by simp) (by simp)
  · have hs' : SessionOk { s with inbox := rest } := hs
    have hc' : CtIsCipherWord { s with inbox := rest } := ctIsCipherWord_congr hc ⟨rfl, rfl, rfl, rfl, rfl⟩ rfl rfl
    exact exec_ctIsCipherWord he hs' hc' fun hw => htable ⟨ho, q, rest, hi, hw⟩

/-! ## Rounds in a row -/

/-- Below the limit of R183 a round of a session is accepted. -/
theorem AtRound.exec_cmdRound {s : State} {r : Nat} (hs : AtRound s r) (h0 : s.klen ≠ 0) (h16 : s.klen.toNat ≤ 16)
    (hb : bijective s.perm = true) (hr : r + 1 < 2 ^ 32) :
    ∃ t, exec .cmdRound s = .next t ∧ t.outstanding = okWrite ∧ SameTables s t ∧ AtRound t (r + 1) := by
  have ho : s.round ≠ 0xFFFFFFFF#32 := fun e => by
    have hmax : r = 0xFFFFFFFF := hs.round ▸ congrArg BitVec.toNat e
    omega
  have hk := nextKey_eq h0 h16
  exact ⟨_, execCmdRound_of_nextKey_some h0 hb ho hk (inputOf_eq_ite s) rfl rfl, rfl, ⟨rfl, rfl, rfl, rfl, rfl⟩,
    (hs.commitRound h0 h16 hb ho hk rfl rfl).congr ⟨rfl, rfl, rfl, rfl, rfl⟩ rfl rfl rfl⟩

/-- `n` ROUND requests at the port take the invariant from `r` to `r + n`, each answered as accepted. -/
theorem AtRound.run_rounds {s : State} {r n : Nat} (hs : AtRound s r) (ho : s.outstanding = none) (h0 : s.klen ≠ 0)
    (h16 : s.klen.toNat ≤ 16) (hb : bijective s.perm = true) (hr : r + n < 2 ^ 32)
    (hi : s.inbox = List.replicate n (.request 0x1010000000000000001#73)) :
    ∃ t, core.run (2 * n) s = .next t ∧ SameTables s t ∧ AtRound t (r + n) ∧
      t.received = s.received ++ List.replicate n ⟨false, 0⟩ := by
  induction n generalizing s r with
  | zero => exact ⟨s, rfl, ⟨rfl, rfl, rfl, rfl, rfl⟩, hs, by simp⟩
  | succ n ih =>
    have hs' : AtRound { s with inbox := (List.replicate n 0x1010000000000000001#73).map .request } r :=
      hs.congr ⟨rfl, rfl, rfl, rfl, rfl⟩ rfl rfl rfl
    obtain ⟨u, hu, hrsp, htab, hur⟩ := hs'.exec_cmdRound h0 h16 hb (by omega)
    obtain ⟨hinbox, hreceived⟩ := exec_port_frame hu
    obtain ⟨-, hklen, -, -, hperm⟩ := id htab
    have hfirst := run_request (2 * n) ho (by rw [hi, List.map_replicate]; rfl) (decode_roundWord ▸ hu) hrsp
    rw [hreceived] at hfirst
    obtain ⟨t, ht, htab', htr, hrec⟩ :=
      ih (s := { u with outstanding := none, received := s.received ++ [⟨false, 0⟩] })
        (hur.congr ⟨rfl, rfl, rfl, rfl, rfl⟩ rfl rfl rfl) rfl (hklen ▸ h0) (hklen ▸ h16) (hperm ▸ hb) (by omega)
        (hinbox.trans List.map_replicate)
    refine ⟨t, hfirst.trans ht, SameTables.trans htab htab', ?_, ?_⟩
    · rwa [Nat.add_right_comm] at htr
    · rw [hrec, List.append_assoc]; rfl

/-- Settles O38: the loop invariant of R182, from a fresh session on. -/
theorem sessionCiphertextIsIteratedRoundFunction : Obligations.SessionCiphertextIsIteratedRoundFunction := by
  intro s hb n ho h0 h16 hround hkcur h1 hn hi
  have hfresh := atRound_zero hround hkcur
  obtain ⟨t, ht, htab, htn, hrec⟩ := hfresh.run_rounds ho h0 h16 hb (by omega) hi
  rw [Nat.zero_add] at htn
  obtain ⟨-, -, -, -, hperm⟩ := id htab
  have hne : t.round ≠ 0 := fun e => by
    have hzero : 0 = n := by simpa [e] using htn.round
    omega
  refine ⟨t, ht, ?_, htn.round, hrec⟩
  rw [htn.ctIsCipherWord (hperm ▸ hb) hne, htn.round, cipherWord_congr htab hb]

end Sys2Proof.Machine

/-! Proofs of the statements of the family 60_exceptions.md: what a rejection leaves unchanged, the error record,
and the order of the checks. -/

namespace Sys2Proof.Machine

open Claims

/-! ## What a rejection changes -/

/-- R213: recording a rejection writes the record and no other field. -/
theorem recordError_frame (s : State) (c : Cause) (a : RegIndex) (w : Bool) :
    s.recordError c a w = { s with
      err := (s.recordError c a w).err, errCode := (s.recordError c a w).errCode,
      errAddr := (s.recordError c a w).errAddr, errWr := (s.recordError c a w).errWr } := by
  cases he : s.err with
  | true => rw [recordError_of_err he]
  | false => rw [recordError_of_clear he]

/-- Settles O18: of all that a request can come to, only the rejection responds with the error bit. -/
theorem rejectionIsPrecise : Obligations.RejectionIsPrecise := by
  intro i s t d h ht
  cases exec_effect h with
  | rejected c a w =>
    cases ht
    exact ⟨rfl, congrArg (·.respond true 0) (recordError_frame s c a w)⟩
  | read | msg | klen | sbox | key | perm | reset | clrErr | round => cases ht

/-- Settles O19: a rejection keeps a record that is set and sets one that is not, CLR_ERR is excepted, and nothing else
touches the record or responds as a rejection does. -/
theorem errorRecordKeepsFirstRejection : Obligations.ErrorRecordKeepsFirstRejection := by
  intro i s t h
  cases exec_effect h with
  | rejected c a w =>
    refine ⟨fun herr _ => ?_, fun _ _ => rfl, fun _ => recordError_err s c a w⟩
    rw [recordError_of_err herr]
    exact ⟨herr, rfl, rfl, rfl⟩
  | clrErr hi => exact ⟨fun _ hne => absurd hi hne, fun _ hset => (nomatch hset), fun hrej => (nomatch hrej)⟩
  | read | msg | klen | sbox | key | perm | reset | round =>
    exact ⟨fun herr _ => ⟨herr, rfl, rfl, rfl⟩,
      fun hclear hset => absurd (hclear.symm.trans hset) Bool.false_ne_true, fun hrej => (nomatch hrej)⟩

/-! ## The checks of R211

`firstFailure` row by row of the address map, and beside it what performing the decoded request comes to. -/

/-- The outcome `o` of a request with index `a` and write flag `w` is what its first failing check asks for: the
rejection for that cause, or an acceptance where no check fails. -/
inductive FitsFailure (s : State) (a : RegIndex) (w : Bool) :
    Option (BitVec 4) → Host.Outcome State Fault Refusal → Prop where
  | rejected (c : Cause) : FitsFailure s a w (some c.code) (reject s c a w)
  | accepted (t : State) (v : Word) : FitsFailure s a w none (.next (t.respond false v))

theorem FitsFailure.rejectedWith {s : State} {a : RegIndex} {w : Bool} {code : BitVec 4}
    {o : Host.Outcome State Fault Refusal} (h : FitsFailure s a w (some code) o) : RejectedWith s o code a w := by
  cases h with
  | rejected c => exact rejectedWith_reject s c a w

theorem FitsFailure.accepts {s : State} {a : RegIndex} {w : Bool} {o : Host.Outcome State Fault Refusal}
    (h : FitsFailure s a w none o) : ∃ t v, o = .next t ∧ t.outstanding = okRead v := by
  cases h with
  | accepted t v => exact ⟨_, v, rfl, rfl⟩

/-- The last three checks of R211, those of a ROUND. -/
def roundFailure (s : State) : Option (BitVec 4) :=
  if s.klen = 0 then some 6
  else if bijective s.perm = false then some 7
  else if s.round = 0xFFFFFFFF#32 then some 8
  else none

/-- R181 makes the checks of a ROUND in the order of R211. -/
theorem execCmdRound_fits {s : State} (h16 : s.klen.toNat ≤ 16) :
    FitsFailure s 0x01#8 true (roundFailure s) (execCmdRound s) := by
  unfold roundFailure
  by_cases h0 : s.klen = 0
  · rw [if_pos h0, execCmdRound_of_noKeys h0]
    exact .rejected .noKeys
  rw [if_neg h0]
  cases hb : bijective s.perm with
  | false =>
    rw [if_pos rfl, execCmdRound_of_permInvalid h0 (by simp [hb])]
    exact .rejected .permInvalid
  | true =>
    rw [if_neg Bool.false_ne_true.symm]
    by_cases ho : s.round = 0xFFFFFFFF#32
    · rw [if_pos ho, execCmdRound_of_roundOvf h0 hb ho]
      exact .rejected .roundOvf
    · rw [if_neg ho, execCmdRound_of_nextKey_some h0 hb ho (nextKey_eq h0 h16) rfl rfl rfl]
      exact .accepted _ _

theorem readOnly_of_not_fixed {a : RegIndex} (h : ¬ a ≤ 0x0B#8) : readOnly a = false :=
  Bool.eq_false_iff.mpr fun hr => h (readOnly_le a hr)

section FirstFailure

variable (s : State) {a : RegIndex} (d : Word)

theorem firstFailure_of_unmapped (hm : mapped a = false) (we : Bool) :
    firstFailure s (mkRequest we a d) = some 1 := by
  simp [firstFailure, hm]

theorem firstFailure_read (hm : mapped a = true) : firstFailure s (mkRequest false a d) = none := by
  simp [firstFailure, hm]

theorem firstFailure_write_readOnly (hr : readOnly a = true) : firstFailure s (mkRequest true a d) = some 2 := by
  have hm : mapped a = true := (mapped_iff a).mpr (.inl (readOnly_le a hr))
  simp [firstFailure, hm, hr]

/-- A write to a register that is not read-only has the checks of PERM, KLEN and CMD to pass. -/
theorem firstFailure_write (hm : mapped a = true) (hr : readOnly a = false) :
    firstFailure s (mkRequest true a d) =
      if 0x40#8 ≤ a ∧ d.extractLsb' 6 58 ≠ 0#58 then some 3
      else if a = 0x06#8 ∧ (d.toNat = 0 ∨ 16 < d.toNat) then some 4
      else if a = 0x01#8 ∧ (Instr.cmdIllegal d).wf = true then some 5
      else if a = 0x01#8 ∧ d.extractLsb' 0 8 = 1#8 then roundFailure s
      else none := by
  simp [firstFailure, roundFailure, cmdIllegal_wf_iff, hm, hr]

theorem firstFailure_write_keyIndex (j : KeySlot) : firstFailure s (mkRequest true (keyIndex j) d) = none := by
  have hperm : ¬ 0x40#8 ≤ keyIndex j := by have := keyIndex_range j; bv_omega
  have hfixed {b : RegIndex} (hb : b ≤ 0x0B#8) : keyIndex j ≠ b := ne_of_not_fixed (keyIndex_not_fixed j) hb
  rw [firstFailure_write s d (mapped_keyIndex j) (readOnly_of_not_fixed (keyIndex_not_fixed j))]
  simp [hperm, hfixed]

theorem firstFailure_write_permIndex (i : PermEntry) :
    firstFailure s (mkRequest true (permIndex i) d) = if d.extractLsb' 6 58 ≠ 0#58 then some 3 else none := by
  have hperm : 0x40#8 ≤ permIndex i := (permIndex_range i).1
  have hfixed {b : RegIndex} (hb : b ≤ 0x0B#8) : permIndex i ≠ b := ne_of_not_fixed (permIndex_not_fixed i) hb
  rw [firstFailure_write s d (mapped_permIndex i) (readOnly_of_not_fixed (permIndex_not_fixed i))]
  simp [hperm, hfixed]

theorem firstFailure_write_klen :
    firstFailure s (mkRequest true 0x06#8 d) = if d.toNat = 0 ∨ 16 < d.toNat then some 4 else none := by
  rw [firstFailure_write s d rfl rfl]
  simp

theorem firstFailure_write_cmd : firstFailure s (mkRequest true 0x01#8 d) =
    if (Instr.cmdIllegal d).wf = true then some 5
    else if d.extractLsb' 0 8 = 1#8 then roundFailure s else none := by
  rw [firstFailure_write s d rfl rfl]
  simp

end FirstFailure

theorem exec_wrKlen_fits (s : State) (d : Word) :
    FitsFailure s 0x06#8 true (firstFailure s (mkRequest true 0x06#8 d)) (exec (.wrKlen d) s) := by
  rw [firstFailure_write_klen]
  cases hn : klenOperand d with
  | none =>
    rw [if_pos (klenOperand_eq_none.mp hn), exec_wrKlen_of_no_operand hn]
    exact .rejected .badKlen
  | some n =>
    have hlegal : ¬ (d.toNat = 0 ∨ 16 < d.toNat) := by rw [← klenOperand_eq_none, hn]; simp
    rw [if_neg hlegal, exec_wrKlen_of_operand hn]
    exact .accepted _ _

theorem exec_wrPerm_fits (s : State) (i : PermEntry) (d : Word) :
    FitsFailure s (permIndex i) true (firstFailure s (mkRequest true (permIndex i) d)) (exec (.wrPerm i d) s) := by
  rw [firstFailure_write_permIndex]
  cases hv : permOperand d with
  | none =>
    rw [if_pos (permOperand_eq_none.mp hv), exec_wrPerm_of_no_operand hv]
    exact .rejected .rsvdBits
  | some v =>
    have hlegal : ¬ d.extractLsb' 6 58 ≠ 0#58 := by rw [← permOperand_eq_none, hv]; simp
    rw [if_neg hlegal, exec_wrPerm_of_operand hv]
    exact .accepted _ _

/-- A command word is illegal or one of the three of R76. -/
theorem cmdIllegal_wf_or_legal (d : Word) : (Instr.cmdIllegal d).wf = true ∨ d = 1#64 ∨ d = 2#64 ∨ d = 3#64 := by
  simp only [Instr.wf, Bool.and_eq_true, bne_iff_ne]
  tauto

theorem exec_decodeCommand_fits {s : State} (h16 : s.klen.toNat ≤ 16) (d : Word) :
    FitsFailure s 0x01#8 true (firstFailure s (mkRequest true 0x01#8 d)) (exec (decodeCommand d) s) := by
  rw [firstFailure_write_cmd]
  rcases cmdIllegal_wf_or_legal d with hillegal | rfl | rfl | rfl
  · rw [if_pos hillegal, decodeCommand_of_illegal hillegal]
    exact .rejected .illegalCmd
  · exact execCmdRound_fits h16
  · exact .accepted s.roundStateReset 0
  · exact .accepted s.clearError 0

/-- The writes, row by row of the address map. -/
theorem exec_decodeWrite_fits {s : State} (h16 : s.klen.toNat ≤ 16) {a : RegIndex} (hm : mapped a = true) (d : Word) :
    FitsFailure s a true (firstFailure s (mkRequest true a d)) (exec (decodeWrite a d) s) := by
  cases addressRow a with
  | id | status | ct | round | kcur | dbgKey | dbgMix | dbgSub =>
    rw [firstFailure_write_readOnly s d rfl]
    exact .rejected .roWrite
  | cmd => exact exec_decodeCommand_fits h16 d
  | msg | sbox =>
    rw [firstFailure_write s d rfl rfl]
    exact .accepted _ 0
  | klen => exact exec_wrKlen_fits s d
  | key j =>
    rw [firstFailure_write_keyIndex, decodeWrite_keyIndex]
    exact .accepted (s.setKey j d) 0
  | perm i =>
    rw [decodeWrite_permIndex]
    exact exec_wrPerm_fits s i d
  | unmapped _ h => rw [h] at hm; cases hm

/-- R211 for every request: an unmapped index, then a read, then a write. -/
theorem exec_decode_fits {s : State} (h16 : s.klen.toNat ≤ 16) (q : Request) :
    FitsFailure s (reqAddr q) (reqWe q) (firstFailure s q) (exec (decode q) s) := by
  obtain ⟨we, a, d, rfl⟩ := exists_mkRequest q
  rw [reqAddr_mkRequest, reqWe_mkRequest]
  cases hm : mapped a with
  | false =>
    rw [firstFailure_of_unmapped s d hm, decode_mkRequest_of_unmapped hm, exec_decodeUnmapped]
    exact .rejected .badAddr
  | true =>
    cases we with
    | false =>
      rw [firstFailure_read s d hm, decode_mkRequest_read, exec_decodeRead_of_mapped hm]
      exact .accepted s _
    | true =>
      rw [decode_mkRequest_write]
      exact exec_decodeWrite_fits h16 hm d

/-- Settles O20: the first failing check names the rejection's cause, and without one the response is an acceptance. -/
theorem firstFailingCheckGivesTheCause : Obligations.FirstFailingCheckGivesTheCause := by
  intro s q h16
  have hfits := exec_decode_fits h16 q
  exact ⟨fun c hc => FitsFailure.rejectedWith (hc ▸ hfits), fun hnone => FitsFailure.accepts (hnone ▸ hfits)⟩

end Sys2Proof.Machine

/-! Proofs of the statements of the family 70_reset_and_hazards.md: the reset edge, the waiting engine, and the boot
sequence. -/

namespace Sys2Proof.Machine

/-! ## Reset edges and quiet events -/

/-- Settles O2: the port law of a reset edge. -/
theorem resetEdgeAbandonsRequestAndRestoresReset : Obligations.ResetEdgeAbandonsRequestAndRestoresReset :=
  fun _ _ => step_resetEdge

/-- Settles O44: with none outstanding, the response cycle has nothing to deliver. -/
theorem quietEventsChangeNothingWhenNoneOutstanding : Obligations.QuietEventsChangeNothingWhenNoneOutstanding := by
  refine fun s rest ho => ⟨fun hi => ?_, fun hi => ?_, step_busy⟩
  · rw [step_nil hi, answer_none ho, ← hi]
  · rw [step_idle hi, answer_none ho]

/-! ## Lines at the port -/

/-- `s` at a ready port, with `es` still to happen and `rs` received. -/
def State.atReadyPort (s : State) (es : List PortEvent) (rs : List Response) : State :=
  { s with outstanding := none, inbox := es, received := rs }

theorem atReadyPort_self {s : State} (ho : s.outstanding = none) : s.atReadyPort s.inbox s.received = s := by
  rw [State.atReadyPort, ← ho]

theorem linesEvents_eq_map_request (ls : List Line) : linesEvents ls = (ls.map Line.request).map .request := by
  rw [linesEvents, List.map_map]; rfl

/-- At a ready port the lines `ls`, whatever lines follow them, are all accepted and together do `f` to the engine. -/
def Loads (ls : List Line) (f : State → State) : Prop :=
  ∀ (s : State) (ls' : List Line) (rs : List Response) (k : Nat),
    core.run (2 * ls.length + k) (s.atReadyPort (linesEvents (ls ++ ls')) rs) =
      core.run k ((f s).atReadyPort (linesEvents ls') (rs ++ List.replicate ls.length ⟨false, 0⟩))

theorem Loads.nil : Loads [] id := fun s ls' rs k => by simp

theorem Loads.append {ls₁ ls₂ : List Line} {f g : State → State} (h₁ : Loads ls₁ f) (h₂ : Loads ls₂ g) :
    Loads (ls₁ ++ ls₂) (g ∘ f) := fun s ls' rs k => by
  rw [List.append_assoc, List.length_append, Nat.mul_add, Nat.add_assoc, h₁, h₂, List.append_assoc,
    List.replicate_append_replicate]
  rfl

/-- One line: its request's meaning at a ready port, and the two steps of `run_request`. -/
theorem loads_of_exec {l : Line} {f : State → State}
    (h : ∀ s es rs, exec (decode l.request) (s.atReadyPort es rs) = .next (((f s).atReadyPort es rs).respond false 0)) :
    Loads [l] f := fun s ls' rs k => by
  have he := linesEvents_eq_map_request ls'
  rw [List.length_singleton, Nat.mul_one, Nat.add_comm]
  exact (run_request k rfl (congrArg _ he) (h s _ rs) (respond_outstanding ..)).trans (by rw [he]; rfl)

/-- A write that is accepted with the effect `f`. -/
theorem loads_write {r : RegName} {v : Word} {i : Instr} {f : State → State} (hi : decodeWrite r.index v = i)
    (h : ∀ s es rs, exec i (s.atReadyPort es rs) = .next (((f s).atReadyPort es rs).respond false 0)) :
    Loads [.wr r v] f :=
  loads_of_exec ((decode_mkRequest_write _ _).trans hi ▸ h)

/-! ## The lines of the boot sequence -/

theorem loads_sbox (d : Word) : Loads [.wr .sbox d] fun s => s.setSbox d :=
  loads_write (i := .wrSbox d) rfl fun _ _ _ => rfl

theorem loads_msg (d : Word) : Loads [.wr .msg d] fun s => (s.setMsg d).roundStateReset :=
  loads_write (i := .wrMsg d) rfl fun _ _ _ => rfl

theorem loads_klen {d : Word} {n : BitVec 5} (h : klenOperand d = some n) :
    Loads [.wr .klen d] fun s => (s.setKlen n).roundStateReset :=
  loads_write (i := .wrKlen d) rfl fun _ _ _ => exec_wrKlen_of_operand h _

theorem loads_key (j : KeySlot) (k : Word) : Loads [.wr (.key j) k] fun s => s.setKey j k :=
  loads_write (decodeWrite_keyIndex j k) fun _ _ _ => rfl

theorem permOperand_setWidth (v : PermEntry) : permOperand (v.setWidth 64) = some v := by
  refine permOperand_eq_some.mpr ⟨(permData_high_iff _).mpr ?_, ?_⟩
  · rw [BitVec.toNat_setWidth]; omega
  · rw [BitVec.extractLsb'_setWidth_of_le (by decide), BitVec.extractLsb'_eq_self]

theorem loads_perm (i v : PermEntry) : Loads [.wr (.perm i) (v.setWidth 64)] fun s => s.setPerm i v :=
  loads_write (decodeWrite_permIndex i _) fun _ _ _ => exec_wrPerm_of_operand (permOperand_setWidth v) i _

/-- `vs` written over `x` from place `i` on. -/
def writeFrom {α : Type} {n : Nat} : Nat → List α → Vector α n → Vector α n
  | _, [], x => x
  | i, v :: vs, x => writeFrom (i + 1) vs (x.setIfInBounds i v)

/-- Places below `i` keep their value, and the places from `i` on hold `vs`. -/
theorem getElem?_writeFrom {α : Type} {n i m : Nat} {vs : List α} (x : Vector α n) (hn : i + vs.length ≤ n)
    (hm : m < i + vs.length) : (writeFrom i vs x)[m]? = if m < i then x[m]? else vs[m - i]? := by
  induction vs generalizing i x with
  | nil => exact (if_pos hm).symm
  | cons v vs ih =>
    rw [List.length_cons] at hn hm
    rw [writeFrom, ih _ (by omega) (by omega)]
    rcases Nat.lt_trichotomy m i with h | rfl | h
    · rw [if_pos (by omega), if_pos h, Vector.getElem?_setIfInBounds_ne (by omega)]
    · rw [if_pos (by omega), if_neg (by omega), Vector.getElem?_setIfInBounds_self_of_lt (by omega), Nat.sub_self]
      rfl
    · rw [if_neg (by omega), if_neg (by omega), ← Nat.sub_sub, List.getElem?_cons, if_neg (by omega)]

theorem getElem?_writeFrom_zero {α : Type} {n m : Nat} {vs : List α} (x : Vector α n) (hn : vs.length ≤ n)
    (hm : m < vs.length) : (writeFrom 0 vs x)[m]? = vs[m]? := by
  rw [getElem?_writeFrom x (by omega) (by omega), if_neg (Nat.not_lt_zero m), Nat.sub_zero]

theorem writeFrom_zero_toList {α : Type} {n : Nat} (t x : Vector α n) : writeFrom 0 t.toList x = t := by
  refine Vector.ext fun m hm => Option.some.inj ?_
  rw [← Vector.getElem?_eq_getElem, getElem?_writeFrom_zero x (by simp) (by simpa using hm)]
  simp [hm]

theorem set_eq_setIfInBounds {α : Type} {n i j : Nat} (x : Vector α n) (v : α) (hj : j < n) (h : j = i) :
    x.set j v hj = x.setIfInBounds i v := by
  subst h
  simp [Vector.set, Vector.setIfInBounds, Array.setIfInBounds_def, hj]

theorem setKey_ofNat {i : Nat} (hi : i < 16) (s : State) (k : Word) :
    s.setKey (BitVec.ofNat 4 i) k = { s with keys := s.keys.setIfInBounds i k } := by
  have hj : (BitVec.ofNat 4 i).toNat = i := Nat.mod_eq_of_lt hi
  rw [State.setKey, set_eq_setIfInBounds _ _ _ hj]

theorem setPerm_ofNat {i : Nat} (hi : i < 64) (s : State) (v : PermEntry) :
    s.setPerm (BitVec.ofNat 6 i) v = { s with perm := s.perm.setIfInBounds i v } := by
  have hj : (BitVec.ofNat 6 i).toNat = i := Nat.mod_eq_of_lt hi
  rw [State.setPerm, set_eq_setIfInBounds _ _ _ hj]

theorem loads_keyLines {i : Nat} {ks : List Word} (h : i + ks.length ≤ 16) :
    Loads (keyLines i ks) fun s => { s with keys := writeFrom i ks s.keys } := by
  induction ks generalizing i with
  | nil => exact Loads.nil
  | cons k ks ih =>
    rw [List.length_cons] at h
    have hk := loads_key (BitVec.ofNat 4 i) k
    simp only [setKey_ofNat (i := i) (by omega)] at hk
    exact hk.append (ih (by omega))

theorem loads_permLines {i : Nat} {vs : List PermEntry} (h : i + vs.length ≤ 64) :
    Loads (permLines i vs) fun s => { s with perm := writeFrom i vs s.perm } := by
  induction vs generalizing i with
  | nil => exact Loads.nil
  | cons v vs ih =>
    rw [List.length_cons] at h
    have hv := loads_perm (BitVec.ofNat 6 i) v
    simp only [setPerm_ofNat (i := i) (by omega)] at hv
    exact hv.append (ih (by omega))

/-! ## The word of a ruleset -/

/-- The nibbles `hs` in one word, the last one in its low bits. -/
def packNibbles (hs : List (BitVec 4)) : Word := hs.foldl (fun w h => (w <<< 4) ||| h.setWidth 64) 0

theorem rulesetWord_eq_packNibbles (r : Vector (BitVec 4) 16) : rulesetWord r = packNibbles r.toList := rfl

theorem packNibbles_concat (hs : List (BitVec 4)) (h : BitVec 4) :
    packNibbles (hs ++ [h]) = (packNibbles hs <<< 4) ||| h.setWidth 64 := by
  simp [packNibbles]

/-- Nibble `n` from the left is entry `n` of the list (R29). -/
theorem packNibbles_getLsbD {hs : List (BitVec 4)} (h16 : hs.length ≤ 16) {n k : Nat} (hn : n < hs.length)
    (hk : k < 4) :
    (packNibbles hs).getLsbD (4 * (hs.length - 1 - n) + k) = hs[n].getLsbD k := by
  induction hs using List.reverseRecOn with
  | nil => simp at hn
  | append_singleton hs h ih =>
    rw [List.length_append, List.length_singleton] at h16 hn
    have h64 : 4 * (hs.length - n) + k < 64 := by omega
    rw [packNibbles_concat, BitVec.getLsbD_or, BitVec.getLsbD_shiftLeft, BitVec.getLsbD_setWidth, List.length_append,
      List.length_singleton, Nat.add_sub_cancel]
    rcases Nat.lt_succ_iff_lt_or_eq.mp hn with hlt | rfl
    · have hhigh : ¬ 4 * (hs.length - n) + k < 4 := by omega
      have e : 4 * (hs.length - n) + k - 4 = 4 * (hs.length - 1 - n) + k := by omega
      rw [List.getElem_append_left hlt, ← ih (by omega) hlt, e, BitVec.getLsbD_of_ge h _ (by omega)]
      simp [h64, hhigh]
    · have hlow : k < 64 := by omega
      simp [hk, hlow]

/-- SETSBOX's word gives back the ruleset it was made of (R12, R82). -/
theorem sboxEntry_rulesetWord (r : Vector (BitVec 4) 16) (v : BitVec 4) :
    sboxEntry (rulesetWord r) v = r[v.toNat] := by
  refine BitVec.eq_of_getLsbD_eq fun k hk => ?_
  have hv : v.toNat < 16 := v.isLt
  have h := packNibbles_getLsbD (hs := r.toList) (n := v.toNat) (by simp) (by simpa using hv) hk
  have e : 60 - 4 * v.toNat + k = 4 * (16 - 1 - v.toNat) + k := by omega
  rw [sboxEntry, nib, BitVec.getLsbD_extractLsb', e, rulesetWord_eq_packNibbles]
  simpa [hk] using h

/-! ## The boot sequence -/

theorem klenOperand_ofNat {n : Nat} (h1 : 1 ≤ n) (h16 : n ≤ 16) :
    klenOperand (BitVec.ofNat 64 n) = some (BitVec.ofNat 5 n) := by
  have hn : (BitVec.ofNat 64 n).toNat = n := by rw [BitVec.toNat_ofNat]; omega
  rw [klenOperand_eq_some, hn]
  exact ⟨h1, h16, BitVec.eq_of_toNat_eq (by simp)⟩

/-- What the boot sequence does to the engine (R247). -/
def State.boot (s : State) (t : PermTable) (r : Vector (BitVec 4) 16) (m : Word) (ks : List Word) : State :=
  { s with
    perm := t, sbox := rulesetWord r, keys := writeFrom 0 ks s.keys, klen := BitVec.ofNat 5 ks.length, msg := m
    ct := 0, round := 0, kcur := 0 }

/-- SETKEYS (R82): the keys, then the length, whose write resets the round state. -/
theorem loads_setKeysLines {ks : List Word} (h1 : 1 ≤ ks.length) (h16 : ks.length ≤ 16) :
    Loads (setKeysLines ks) fun s =>
      ({ s with keys := writeFrom 0 ks s.keys }.setKlen (BitVec.ofNat 5 ks.length)).roundStateReset :=
  (loads_keyLines (by omega)).append (loads_klen (klenOperand_ofNat h1 h16))

/-- SETPERM (R82) writes every entry, so that the table before it takes no part. -/
theorem loads_setPermLines (t : PermTable) : Loads (permLines 0 t.toList) fun s => { s with perm := t } := by
  have h := loads_permLines (i := 0) (vs := t.toList) (by simp)
  simpa only [writeFrom_zero_toList] using h

/-- NEWENGINE (R82): its four parts, in order. -/
theorem loads_newEngine {t : PermTable} {r : Vector (BitVec 4) 16} {m : Word} {ks : List Word} {ls : List Line}
    (h : (Pseudo.newEngine t r m ks).expand = some ls) :
    ks.length ≤ 16 ∧ Loads ls fun s => s.boot t r m ks := by
  rw [Pseudo.expand] at h
  obtain ⟨⟨h1, h16⟩, hls⟩ := (Option.ite_none_right_eq_some ..).mp h
  cases hls
  have htables := (loads_setPermLines t).append (loads_sbox (rulesetWord r))
  exact ⟨h16, (htables.append (loads_setKeysLines h1 h16)).append (loads_msg m)⟩

/-- Settles O39: what the boot sequence's lines load, read off register by register. -/
theorem bootSequenceBuildsFreshEngine : Obligations.BootSequenceBuildsFreshEngine := by
  intro s t r m ks ls hls ho hi
  obtain ⟨h16, hload⟩ := loads_newEngine hls
  have hrun := hload s [] s.received 0
  rw [List.append_nil, ← hi, atReadyPort_self ho] at hrun
  have hklen : (BitVec.ofNat 5 ks.length).toNat = ks.length := Nat.mod_eq_of_lt (by omega)
  have hkeys (j : Nat) (hj : j < ks.length) : (writeFrom 0 ks s.keys)[j]? = ks[j]? := getElem?_writeFrom_zero _ h16 hj
  exact ⟨_, hrun, rfl, sboxEntry_rulesetWord r, rfl, hklen, hkeys, rfl, rfl, rfl, rfl⟩

end Sys2Proof.Machine
